-- ==== Sys2Proof/Word.lean ====
section
/-! DEFINITION. The words of the line: bytes, holder tags, frames. -/

namespace Sys2Proof

/-- One byte of the tool-data line (section 9.2). -/
abbrev Byte := BitVec 8

/-- A holder tag: 64 bits, every value valid (R5). -/
abbrev Tag := BitVec 64

/-- A whole frame as it stands on a segment, start delimiter first (section 9.2). -/
abbrev Frame := List Byte

end Sys2Proof
end

