-- ==== Sys2Proof/Syntax.lean ====
section
/-! DEFINITION. The commands: one constructor of `Instr` for each row of spec/opcode_table.json, with the
operands that the frame, pin or request of the row carries. Numbers stand as the line carries them, so a
value that a rule refuses can still be written down; WellFormed.lean says which numbers a frame can carry. -/

namespace Sys2Proof

/-- The two line ports (section 9.1). -/
inductive Port where
  | crib
  | hall
deriving DecidableEq, Repr

/-- Sample kinds of a GAUGE frame (section 9.3). -/
inductive SampleKind where
  | contact
  | sample
  | release
deriving DecidableEq, Repr

/-- The fields of a GAUGE frame besides its sample kind and holder tag (sections 3.1 and 9.3). -/
structure GaugeFrame where
  /-- axis code: 0 LENGTH, 1 RADIUS, any other unknown -/
  axis : Nat
  /-- gating kind: 0 SENSOR-COUNTED, 1 REFERENCE-COUNTED, any other unknown -/
  gating : Nat
  overflow : Bool
  /-- scale count S -/
  scale : Int
  /-- sensor count Cs -/
  sensor : Nat
  /-- reference count Cr -/
  reference : Nat
  /-- temperature code T -/
  temperature : Nat
deriving DecidableEq, Repr

/-- The fields of a USAGE frame (R149). -/
structure UsageReport where
  pocket : Nat
  assembly : Nat
  minutes : Nat
  lengthWear : Int
  radiusWear : Int
  broken : Bool
deriving DecidableEq, Repr

/-- A place of the issue map: a machine and a pocket (R101). -/
structure Place where
  machine : Nat
  pocket : Nat
deriving DecidableEq, Repr

/-- The body of WRITE_TYPE: every field of section 2.1 but the in-use count. -/
structure TypeBody where
  defined : Nat
  axes : Nat
  nominalL : Int
  lowerL : Int
  upperL : Int
  nominalR : Int
  lowerR : Int
  upperR : Int
  band : Int
  lifeLimit : Nat
  lengthWearLimit : Int
  radiusWearLimit : Int
  auditThreshold : Nat
deriving DecidableEq, Repr

/-- One breakpoint (q, g) of a calibration bank (section 4.1). -/
structure Breakpoint where
  q : Int
  g : Int
deriving DecidableEq, Repr

/-- The bank body of WRITE_CAL (R60). -/
structure CalBody where
  /-- the stated breakpoint count n -/
  count : Nat
  breakpoints : List Breakpoint
  /-- Mnum -/
  scaleNum : Nat
  /-- Mden -/
  scaleDen : Nat
  /-- zero offset Z -/
  zero : Int
  /-- thermal coefficient as carried -/
  alpha : Nat
  refMin : Nat
  refMax : Nat
  /-- settle depth K -/
  depth : Nat
deriving DecidableEq, Repr

/-- One output slot as WRITE_PROFILE carries it (R123). -/
structure SlotBody where
  source : Nat
  unit : Nat
  width : Nat
  negate : Nat
  blankZero : Nat
deriving DecidableEq, Repr

/-- The bank body of WRITE_PROFILE (R130). -/
structure ProfileBody where
  /-- the stated slot count -/
  count : Nat
  slots : List SlotBody
  offset : Int
deriving DecidableEq, Repr

/-- The body of DEFINE_MACHINE (R121). -/
structure MachineBody where
  defined : Nat
  magazine : Nat
  push : Nat
deriving DecidableEq, Repr

/-- An axis entry as RESTORE carries it (R14). -/
structure EntryBody where
  value : Int
  freshness : Nat
  clamp : Nat
  head : Nat
  bank : Nat
deriving DecidableEq, Repr

/-- The full record that RESTORE carries (R14). -/
structure RestoreBody where
  type : Nat
  tag : Option Tag
  length : Option EntryBody
  radius : Option EntryBody
  lifeUsed : Nat
  lengthWear : Int
  radiusWear : Int
  recheck : Nat
  reason : Option Nat
  target : Nat
  location : Option Place
deriving DecidableEq, Repr

/-- The four fields that WRITE_HOLDS carries for its window (R21). -/
structure HoldBody where
  enabled : Nat
  base : Nat
  exponent : Nat
  complement : Nat
deriving DecidableEq, Repr

/-- What comes in on a port in one event: the bytes, and whether the transmission on the cable ends with them
(section 9.4, R165; log 14). -/
structure Reception where
  bytes : List Byte
  ended : Bool
deriving DecidableEq, Repr

/-- The commands. `rt` is a management request's request tag (section 10.1). -/
inductive Instr where
  /-- supply is applied (R185) -/
  | powerOnReset
  /-- the RESET pin is asserted (R185) -/
  | pinReset
  /-- bytes are received at a port; when the transmission ends with them, the frame they complete arrives
  (R160 to R165) -/
  | frameArrival (port : Port) (bytes : Reception)
  /-- a GAUGE CONTACT frame of a head (R44) -/
  | contact (head : Fin 4) (g : GaugeFrame) (tag : Tag)
  /-- a GAUGE SAMPLE frame of a head (R44) -/
  | sample (head : Fin 4) (g : GaugeFrame)
  /-- a GAUGE RELEASE frame of a head (R44) -/
  | release (head : Fin 4) (g : GaugeFrame)
  /-- a TAG frame with action ISSUE of a counter (R99, R103) -/
  | issue (counter : Fin 4) (tag : Tag) (machine pocket : Nat)
  /-- a TAG frame with action RETURN of a counter (R99, R108) -/
  | returnHolder (counter : Fin 4) (tag : Tag)
  /-- a DATA_REQUEST frame of hall node `machine` (R139) -/
  | dataRequest (machine pocket : Nat)
  /-- a USAGE frame of hall node `machine` (R149) -/
  | usage (machine : Nat) (report : UsageReport)
  /-- a GENERAL frame that arrives at `port` for node `dst` of the other segment (R166) -/
  | general (port : Port) (dst src : Nat) (payload : List Byte)
  /-- a crib TOOL_DATA frame from crib node `src` for H/`machine` (R167) -/
  | toolData (machine src : Nat) (payload : List Byte)
  /-- the end of the transmission on a port (R172) -/
  | transmissionCompletion (port : Port)
  /-- a take of the Handoff Formatter (R143) -/
  | handoffTake
  /-- a step of the sweep engine (R34) -/
  | sweepStep
  /-- the ending step of the sweep engine (R35) -/
  | sweepEnd
  /-- the SAMPLE frame whose reading is a capture's 64th and does not settle it (R86) -/
  | settleTimeout (head : Fin 4) (g : GaugeFrame)
  /-- the gauge frame that ends a capture holding a pending calibration switch (R65); the tag is a CONTACT's -/
  | atCaptureEnd (head : Fin 4) (kind : SampleKind) (g : GaugeFrame) (tag : Tag)
  /-- the take of a machine's last marked entry (R134) -/
  | atDrain (machine : Nat)
  | identify (rt : Nat)
  | readStatus (rt : Nat)
  | clearStatus (rt : Nat)
  | readCounters (rt : Nat)
  | clearCounters (rt : Nat)
  | writeType (rt type : Nat) (body : TypeBody)
  | readType (rt type : Nat)
  | writeCal (rt head bank : Nat) (body : CalBody)
  | readCal (rt head bank : Nat)
  | switchCal (rt head bank : Nat)
  | cancelCalSwitch (rt head : Nat)
  | headRestore (rt head : Nat)
  | defineMachine (rt machine : Nat) (body : MachineBody)
  | writeProfile (rt machine bank : Nat) (body : ProfileBody)
  | readProfile (rt machine bank : Nat)
  | switchProfile (rt machine bank : Nat)
  | cancelProfileSwitch (rt machine : Nat)
  | pauseHandoff (rt machine : Nat)
  | resumeHandoff (rt machine : Nat)
  | readPockets (rt machine first count : Nat)
  | create (rt number type : Nat) (tag : Option Tag)
  | restore (rt number : Nat) (body : RestoreBody)
  /-- EDIT with action CHANGE_TYPE (R16) -/
  | changeType (rt number type : Nat)
  /-- EDIT with action BIND_TAG (R17) -/
  | bindTag (rt number : Nat) (tag : Tag)
  /-- EDIT with action UNBIND_TAG (R17) -/
  | unbindTag (rt number : Nat)
  /-- EDIT with action REBUILD (R18) -/
  | rebuild (rt number : Nat)
  | delete (rt number : Nat)
  | readAssemblies (rt start count : Nat)
  | forceReturn (rt number : Nat)
  | writeHolds (rt window : Nat) (body : HoldBody)
  | seedAudit (rt value : Nat)
  | sweepSuspend (rt : Nat)
  | sweepResume (rt : Nat)
  | setProtection (rt mode : Nat)
  | lineReset (rt : Nat)
  /-- an MGMT frame whose code is not known, or whose body has not the form of its fields (R176) -/
  | unknownRequest (code rt : Nat) (body : List Byte)
  /-- the RESET pin is released (R185) -/
  | resetPinRelease
  /-- the KEY line goes to a level (R178) -/
  | keyLineChange (asserted : Bool)
deriving DecidableEq, Repr

end Sys2Proof
end

