-- ==== Sys2Proof/Machine/Operands.lean ====
section
/-! DEFINITION. The operand forms of the line: the encodings of R159 written and read, the check field of
R158, and the frame layout of section 9.2. -/

namespace Sys2Proof.Machine

/-! ## Writing the encodings of R159 -/

/-- A number of 0 to 255: one byte (R159). -/
def putU8 (n : Nat) : List Byte := [BitVec.ofNat 8 n]

/-- A number of 0 to 65,535: two bytes, most significant first (R159, section 9.2). -/
def putU16 (n : Nat) : List Byte := [BitVec.ofNat 8 (n / 256), BitVec.ofNat 8 n]

/-- The four bytes of a 32-bit word, most significant first. -/
def wordBytes (w : BitVec 32) : List Byte :=
  [w.extractLsb' 24 8, w.extractLsb' 16 8, w.extractLsb' 8 8, w.extractLsb' 0 8]

/-- A signed number, or one whose range reaches above 65,535: four bytes in two's complement (R159). -/
def putI32 (x : Int) : List Byte := wordBytes (BitVec.ofInt 32 x)

/-- A holder tag: eight bytes (R159). -/
def putTag (t : Tag) : List Byte :=
  wordBytes (t.extractLsb' 32 32) ++ wordBytes (t.extractLsb' 0 32)

/-- A yes/no field: 1 or 0 (section 9.3). -/
def putBool (b : Bool) : List Byte := putU8 b.toNat

/-- An optional field: a presence byte, then the value, of `size` zero bytes when absent (R159). -/
def putOption {α : Type} (size : Nat) (put : α → List Byte) : Option α → List Byte
  | some a => putU8 1 ++ put a
  | none => putU8 0 ++ List.replicate size 0

/-- A list of varying length: a count byte, then the entries (R159). -/
def putList {α : Type} (put : α → List Byte) (xs : List α) : List Byte :=
  putU8 xs.length ++ (xs.map put).flatten

/-! ## Reading them -/

/-- Reads a field from the front of the bytes, answering it with the bytes that follow; none when the
bytes do not hold it. -/
abbrev Reader (α : Type) := List Byte → Option (α × List Byte)

/-- One byte as a number. -/
def getU8 : Reader Nat
  | b :: bs => some (b.toNat, bs)
  | [] => none

/-- Two bytes as a number, most significant first. -/
def getU16 : Reader Nat
  | a :: b :: bs => some (a.toNat * 256 + b.toNat, bs)
  | _ => none

/-- Four bytes as one word, most significant first. -/
def getWord : Reader (BitVec 32)
  | a :: b :: c :: d :: bs => some (a ++ b ++ c ++ d, bs)
  | _ => none

/-- Four bytes as a signed number. -/
def getI32 : Reader Int := fun bs => do
  let (w, bs) ← getWord bs
  some (w.toInt, bs)

/-- Eight bytes as a holder tag. -/
def getTag : Reader Tag := fun bs => do
  let (hi, bs) ← getWord bs
  let (lo, bs) ← getWord bs
  some (hi ++ lo, bs)

/-- An optional field: the presence byte must be 0 or 1 (R176), and the value's bytes are there either
way; the filler of an absent field is not looked at (log 15). -/
def getOption {α : Type} (get : Reader α) : Reader (Option α) := fun bs => do
  let (p, bs) ← getU8 bs
  let (a, bs) ← get bs
  match p with
  | 0 => some (none, bs)
  | 1 => some (some a, bs)
  | _ => none

/-- `n` entries one after another. -/
def getMany {α : Type} (get : Reader α) : Nat → Reader (List α)
  | 0, bs => some ([], bs)
  | n + 1, bs => do
    let (a, bs) ← get bs
    let (as, bs) ← getMany get n bs
    some (a :: as, bs)

/-- A count byte and as many entries as it says (R159, R176). -/
def getList {α : Type} (get : Reader α) : Reader (List α) := fun bs => do
  let (n, bs) ← getU8 bs
  getMany get n bs

/-- The whole of `bytes` read by `get`, nothing left over (R176: the length is exactly that of the fields). -/
def readAll {α : Type} (get : Reader α) (bytes : List Byte) : Option α :=
  match get bytes with
  | some (a, []) => some a
  | _ => none

/-! ## Request bodies, field by field -/

/-- The WRITE_TYPE record in the order of section 2.1. -/
def putTypeBody (b : TypeBody) : List Byte :=
  putU8 b.defined ++ putU8 b.axes ++ putI32 b.nominalL ++ putI32 b.lowerL ++ putI32 b.upperL
    ++ putI32 b.nominalR ++ putI32 b.lowerR ++ putI32 b.upperR ++ putI32 b.band ++ putU16 b.lifeLimit
    ++ putI32 b.lengthWearLimit ++ putI32 b.radiusWearLimit ++ putU16 b.auditThreshold

/-- Reads what `putTypeBody` writes. -/
def getTypeBody : Reader TypeBody := fun bs => do
  let (defined, bs) ← getU8 bs
  let (axes, bs) ← getU8 bs
  let (nominalL, bs) ← getI32 bs
  let (lowerL, bs) ← getI32 bs
  let (upperL, bs) ← getI32 bs
  let (nominalR, bs) ← getI32 bs
  let (lowerR, bs) ← getI32 bs
  let (upperR, bs) ← getI32 bs
  let (band, bs) ← getI32 bs
  let (lifeLimit, bs) ← getU16 bs
  let (lengthWearLimit, bs) ← getI32 bs
  let (radiusWearLimit, bs) ← getI32 bs
  let (auditThreshold, bs) ← getU16 bs
  some (⟨defined, axes, nominalL, lowerL, upperL, nominalR, lowerR, upperR, band, lifeLimit,
    lengthWearLimit, radiusWearLimit, auditThreshold⟩, bs)

/-- A breakpoint: q and g, four bytes each (R159). -/
def putBreakpoint (p : Breakpoint) : List Byte := putI32 p.q ++ putI32 p.g

/-- Reads a breakpoint. -/
def getBreakpoint : Reader Breakpoint := fun bs => do
  let (q, bs) ← getI32 bs
  let (g, bs) ← getI32 bs
  some (⟨q, g⟩, bs)

/-- The bank body of WRITE_CAL: the breakpoint count, then the list with its own count byte (log 9), then
the other fields in the order of section 4.1. -/
def putCalBody (b : CalBody) : List Byte :=
  putU8 b.count ++ putList putBreakpoint b.breakpoints ++ putU16 b.scaleNum ++ putU16 b.scaleDen
    ++ putI32 b.zero ++ putU16 b.alpha ++ putU16 b.refMin ++ putU16 b.refMax ++ putU8 b.depth

/-- Reads what `putCalBody` writes. -/
def getCalBody : Reader CalBody := fun bs => do
  let (count, bs) ← getU8 bs
  let (breakpoints, bs) ← getList getBreakpoint bs
  let (scaleNum, bs) ← getU16 bs
  let (scaleDen, bs) ← getU16 bs
  let (zero, bs) ← getI32 bs
  let (alpha, bs) ← getU16 bs
  let (refMin, bs) ← getU16 bs
  let (refMax, bs) ← getU16 bs
  let (depth, bs) ← getU8 bs
  some (⟨count, breakpoints, scaleNum, scaleDen, zero, alpha, refMin, refMax, depth⟩, bs)

/-- An output slot in the order of R123. -/
def putSlotBody (b : SlotBody) : List Byte :=
  putU8 b.source ++ putU8 b.unit ++ putU8 b.width ++ putU8 b.negate ++ putU8 b.blankZero

/-- Reads an output slot. -/
def getSlotBody : Reader SlotBody := fun bs => do
  let (source, bs) ← getU8 bs
  let (unit, bs) ← getU8 bs
  let (width, bs) ← getU8 bs
  let (negate, bs) ← getU8 bs
  let (blankZero, bs) ← getU8 bs
  some (⟨source, unit, width, negate, blankZero⟩, bs)

/-- The bank body of WRITE_PROFILE: the slot count, the slot list with its count byte (log 9), the offset. -/
def putProfileBody (b : ProfileBody) : List Byte :=
  putU8 b.count ++ putList putSlotBody b.slots ++ putI32 b.offset

/-- Reads what `putProfileBody` writes. -/
def getProfileBody : Reader ProfileBody := fun bs => do
  let (count, bs) ← getU8 bs
  let (slots, bs) ← getList getSlotBody bs
  let (offset, bs) ← getI32 bs
  some (⟨count, slots, offset⟩, bs)

/-- The body of DEFINE_MACHINE in the order of R121. -/
def putMachineBody (b : MachineBody) : List Byte :=
  putU8 b.defined ++ putU8 b.magazine ++ putU8 b.push

/-- Reads what `putMachineBody` writes. -/
def getMachineBody : Reader MachineBody := fun bs => do
  let (defined, bs) ← getU8 bs
  let (magazine, bs) ← getU8 bs
  let (push, bs) ← getU8 bs
  some (⟨defined, magazine, push⟩, bs)

/-- An axis entry with all its parts, in the order of section 1.1. -/
def putEntryBody (b : EntryBody) : List Byte :=
  putI32 b.value ++ putU8 b.freshness ++ putU8 b.clamp ++ putU8 b.head ++ putU8 b.bank

/-- Reads an axis entry. -/
def getEntryBody : Reader EntryBody := fun bs => do
  let (value, bs) ← getI32 bs
  let (freshness, bs) ← getU8 bs
  let (clamp, bs) ← getU8 bs
  let (head, bs) ← getU8 bs
  let (bank, bs) ← getU8 bs
  some (⟨value, freshness, clamp, head, bank⟩, bs)

/-- A place: machine, then pocket. -/
def putPlace (p : Place) : List Byte := putU8 p.machine ++ putU8 p.pocket

/-- Reads a place. -/
def getPlace : Reader Place := fun bs => do
  let (machine, bs) ← getU8 bs
  let (pocket, bs) ← getU8 bs
  some (⟨machine, pocket⟩, bs)

/-- The record of RESTORE in the order in which R14 names its fields. -/
def putRestoreBody (b : RestoreBody) : List Byte :=
  putU8 b.type ++ putOption 8 putTag b.tag ++ putOption 8 putEntryBody b.length
    ++ putOption 8 putEntryBody b.radius ++ putU16 b.lifeUsed ++ putI32 b.lengthWear
    ++ putI32 b.radiusWear ++ putU8 b.recheck ++ putOption 1 putU8 b.reason ++ putU8 b.target
    ++ putOption 2 putPlace b.location

/-- Reads what `putRestoreBody` writes. -/
def getRestoreBody : Reader RestoreBody := fun bs => do
  let (type, bs) ← getU8 bs
  let (tag, bs) ← getOption getTag bs
  let (length, bs) ← getOption getEntryBody bs
  let (radius, bs) ← getOption getEntryBody bs
  let (lifeUsed, bs) ← getU16 bs
  let (lengthWear, bs) ← getI32 bs
  let (radiusWear, bs) ← getI32 bs
  let (recheck, bs) ← getU8 bs
  let (reason, bs) ← getOption getU8 bs
  let (target, bs) ← getU8 bs
  let (location, bs) ← getOption getPlace bs
  some (⟨type, tag, length, radius, lifeUsed, lengthWear, radiusWear, recheck, reason, target, location⟩, bs)

/-- The four fields of a hold window in the order of section 1.6. -/
def putHoldBody (b : HoldBody) : List Byte :=
  putU8 b.enabled ++ putU16 b.base ++ putU8 b.exponent ++ putU8 b.complement

/-- Reads what `putHoldBody` writes. -/
def getHoldBody : Reader HoldBody := fun bs => do
  let (enabled, bs) ← getU8 bs
  let (base, bs) ← getU16 bs
  let (exponent, bs) ← getU8 bs
  let (complement, bs) ← getU8 bs
  some (⟨enabled, base, exponent, complement⟩, bs)

/-! ## The payloads of the central frame kinds (section 9.3) -/

/-- Sample kind codes (section 9.3). -/
def sampleKindCode : SampleKind → Nat
  | .contact => 0
  | .sample => 1
  | .release => 2

/-- The 13 bytes common to every GAUGE payload. -/
def putGauge (k : SampleKind) (g : GaugeFrame) : List Byte :=
  putU8 (sampleKindCode k) ++ putU8 g.axis ++ putU8 g.gating ++ putBool g.overflow ++ putI32 g.scale
    ++ putU16 g.sensor ++ putU16 g.reference ++ putU8 g.temperature

/-- Reads the fields after the sample kind; bits 7 to 1 of the mark byte are not read (section 9.3). -/
def getGauge : Reader GaugeFrame := fun bs => do
  let (axis, bs) ← getU8 bs
  let (gating, bs) ← getU8 bs
  let (mark, bs) ← getU8 bs
  let (scale, bs) ← getI32 bs
  let (sensor, bs) ← getU16 bs
  let (reference, bs) ← getU16 bs
  let (temperature, bs) ← getU8 bs
  some (⟨axis, gating, mark % 2 = 1, scale, sensor, reference, temperature⟩, bs)

/-- The 14 bytes of a USAGE payload. -/
def putUsage (u : UsageReport) : List Byte :=
  putU8 u.pocket ++ putU16 u.assembly ++ putU16 u.minutes ++ putI32 u.lengthWear ++ putI32 u.radiusWear
    ++ putBool u.broken

/-- Reads a USAGE payload; bits 7 to 1 of its last byte are not read (section 9.3). -/
def getUsage : Reader UsageReport := fun bs => do
  let (pocket, bs) ← getU8 bs
  let (assembly, bs) ← getU16 bs
  let (minutes, bs) ← getU16 bs
  let (lengthWear, bs) ← getI32 bs
  let (radiusWear, bs) ← getI32 bs
  let (mark, bs) ← getU8 bs
  some (⟨pocket, assembly, minutes, lengthWear, radiusWear, mark % 2 = 1⟩, bs)

/-! ## Frames -/

/-- One bit into the check register (R158). -/
def checkBit (r : BitVec 16) (b : Bool) : BitVec 16 :=
  if r.msb ^^ b then (r <<< 1) ^^^ 0x1021 else r <<< 1

/-- One byte into the check register, most significant bit first (R158). -/
def checkByte (r : BitVec 16) (b : Byte) : BitVec 16 :=
  (List.range 8).foldl (fun r i => checkBit r (b.getMsbD i)) r

/-- The check of R158 over the covered bytes: the register starts at all ones. -/
def checkOf (covered : List Byte) : BitVec 16 := covered.foldl checkByte 0xFFFF

/-- The check field: high byte first, no inversion (R158). -/
def checkField (covered : List Byte) : List Byte :=
  [(checkOf covered).extractLsb' 8 8, (checkOf covered).extractLsb' 0 8]

/-- The start delimiter (section 9.2). -/
def startDelimiter : Byte := 0xA5

/-- The segment flag of a port: 0 crib, 1 hall (section 9.2). -/
def segmentFlag : Port → Nat
  | .crib => 0
  | .hall => 128

/-- The segment that is not this port's. -/
def otherPort : Port → Port
  | .crib => .hall
  | .hall => .crib

/-- The frame of section 9.2 with a segment and node for destination and source. -/
def buildFrame (dstSeg : Port) (dst : Nat) (srcSeg : Port) (src kind : Nat) (payload : List Byte) : Frame :=
  let covered := putU8 (segmentFlag dstSeg + dst) ++ putU8 (segmentFlag srcSeg + src) ++ putU8 kind
    ++ putU8 payload.length ++ payload
  startDelimiter :: covered ++ checkField covered

/-- Kind codes of section 9.2. -/
inductive FrameKind where
  | gauge | tag | issueAnswer | mgmt | mgmtReply | notice | dataRequest | toolData | usage | general
deriving DecidableEq, Repr

/-- The kind that a code stands for (section 9.2). -/
def frameKind? : Nat → Option FrameKind
  | 0x01 => some .gauge
  | 0x02 => some .tag
  | 0x03 => some .issueAnswer
  | 0x04 => some .mgmt
  | 0x05 => some .mgmtReply
  | 0x06 => some .notice
  | 0x07 => some .dataRequest
  | 0x08 => some .toolData
  | 0x09 => some .usage
  | 0x0F => some .general
  | _ => none

/-- The code of a kind (section 9.2). -/
def frameKindCode : FrameKind → Nat
  | .gauge => 0x01
  | .tag => 0x02
  | .issueAnswer => 0x03
  | .mgmt => 0x04
  | .mgmtReply => 0x05
  | .notice => 0x06
  | .dataRequest => 0x07
  | .toolData => 0x08
  | .usage => 0x09
  | .general => 0x0F

end Sys2Proof.Machine
end

