-- ==== Sys2Proof/Decode.lean ====
section
/-! DEFINITION. From words and frames to commands. spec/opcode_table.json gives no row any bits, so no table
word spells a command (log 8). A frame spells one by the stages of R160 to R164 and, for an MGMT frame, by
the forms of R176; the encoder writes the frame that carries a command. -/

namespace Sys2Proof

open Machine

/-- The command that a word spells by the table's bits: no row of the table has bits (log 8). -/
def decodeTableWord (_nbits _w : Nat) : Option Instr := none

/-! ## Management requests (section 10.1, R176) -/

/-- Request codes of section 10.1. -/
def requestCodes : List Nat :=
  [0x01, 0x02, 0x03, 0x04, 0x05, 0x10, 0x11, 0x20, 0x21, 0x22, 0x23, 0x24, 0x30, 0x31, 0x32, 0x33, 0x34,
    0x35, 0x36, 0x37, 0x40, 0x41, 0x42, 0x43, 0x44, 0x45, 0x50, 0x51, 0x60, 0x61, 0x70, 0x71]

/-- A request without a body. -/
def getNothing (i : Instr) : Reader Instr := fun bs => some (i, bs)

/-- A body of one byte. -/
def getOne (f : Nat → Instr) : Reader Instr := fun bs => do
  let (a, bs) ← getU8 bs
  some (f a, bs)

/-- A body of one two-byte number. -/
def getNumber (f : Nat → Instr) : Reader Instr := fun bs => do
  let (a, bs) ← getU16 bs
  some (f a, bs)

/-- A body of two bytes. -/
def getTwo (f : Nat → Nat → Instr) : Reader Instr := fun bs => do
  let (a, bs) ← getU8 bs
  let (b, bs) ← getU8 bs
  some (f a b, bs)

/-- EDIT: the assembly number, the action code and the action's own field (R16; actions in section 9.3).
An unknown action gives the body no form. -/
def getEdit (rt : Nat) : Reader Instr := fun bs => do
  let (number, bs) ← getU16 bs
  let (action, bs) ← getU8 bs
  match action with
  | 1 => do
    let (type, bs) ← getU8 bs
    some (.changeType rt number type, bs)
  | 2 => do
    let (tag, bs) ← getTag bs
    some (.bindTag rt number tag, bs)
  | 3 => some (.unbindTag rt number, bs)
  | 4 => some (.rebuild rt number, bs)
  | _ => none

/-- The body reader of a request code; none for a code that section 10.1 does not list. -/
def requestReader (code rt : Nat) : Option (Reader Instr) :=
  match code with
  | 0x01 => some (getNothing (.identify rt))
  | 0x02 => some (getNothing (.readStatus rt))
  | 0x03 => some (getNothing (.clearStatus rt))
  | 0x04 => some (getNothing (.readCounters rt))
  | 0x05 => some (getNothing (.clearCounters rt))
  | 0x10 => some fun bs => do
    let (type, bs) ← getU8 bs
    let (body, bs) ← getTypeBody bs
    some (.writeType rt type body, bs)
  | 0x11 => some (getOne (.readType rt))
  | 0x20 => some fun bs => do
    let (head, bs) ← getU8 bs
    let (bank, bs) ← getU8 bs
    let (body, bs) ← getCalBody bs
    some (.writeCal rt head bank body, bs)
  | 0x21 => some (getTwo (.readCal rt))
  | 0x22 => some (getTwo (.switchCal rt))
  | 0x23 => some (getOne (.cancelCalSwitch rt))
  | 0x24 => some (getOne (.headRestore rt))
  | 0x30 => some fun bs => do
    let (machine, bs) ← getU8 bs
    let (body, bs) ← getMachineBody bs
    some (.defineMachine rt machine body, bs)
  | 0x31 => some fun bs => do
    let (machine, bs) ← getU8 bs
    let (bank, bs) ← getU8 bs
    let (body, bs) ← getProfileBody bs
    some (.writeProfile rt machine bank body, bs)
  | 0x32 => some (getTwo (.readProfile rt))
  | 0x33 => some (getTwo (.switchProfile rt))
  | 0x34 => some (getOne (.cancelProfileSwitch rt))
  | 0x35 => some (getOne (.pauseHandoff rt))
  | 0x36 => some (getOne (.resumeHandoff rt))
  | 0x37 => some fun bs => do
    let (machine, bs) ← getU8 bs
    let (first, bs) ← getU8 bs
    let (count, bs) ← getU8 bs
    some (.readPockets rt machine first count, bs)
  | 0x40 => some fun bs => do
    let (number, bs) ← getU16 bs
    let (type, bs) ← getU8 bs
    let (tag, bs) ← getOption getTag bs
    some (.create rt number type tag, bs)
  | 0x41 => some fun bs => do
    let (number, bs) ← getU16 bs
    let (body, bs) ← getRestoreBody bs
    some (.restore rt number body, bs)
  | 0x42 => some (getEdit rt)
  | 0x43 => some (getNumber (.delete rt))
  | 0x44 => some fun bs => do
    let (start, bs) ← getU16 bs
    let (count, bs) ← getU8 bs
    some (.readAssemblies rt start count, bs)
  | 0x45 => some (getNumber (.forceReturn rt))
  | 0x50 => some fun bs => do
    let (window, bs) ← getU8 bs
    let (body, bs) ← getHoldBody bs
    some (.writeHolds rt window body, bs)
  | 0x51 => some (getNumber (.seedAudit rt))
  | 0x60 => some (getNothing (.sweepSuspend rt))
  | 0x61 => some (getNothing (.sweepResume rt))
  | 0x70 => some (getOne (.setProtection rt))
  | 0x71 => some (getNothing (.lineReset rt))
  | _ => none

/-- The request that a code and a body spell (R176 checks 1 and 2); none when either check fails. -/
def decodeRequest (code rt : Nat) (body : List Byte) : Option Instr :=
  (requestReader code rt).bind fun get => readAll get body

/-- The code, request tag and body of a management request (section 10.1, R159); none for the other rows. -/
def encodeRequest : Instr → Option (Nat × Nat × List Byte)
  | .identify rt => some (0x01, rt, [])
  | .readStatus rt => some (0x02, rt, [])
  | .clearStatus rt => some (0x03, rt, [])
  | .readCounters rt => some (0x04, rt, [])
  | .clearCounters rt => some (0x05, rt, [])
  | .writeType rt type body => some (0x10, rt, putU8 type ++ putTypeBody body)
  | .readType rt type => some (0x11, rt, putU8 type)
  | .writeCal rt head bank body => some (0x20, rt, putU8 head ++ putU8 bank ++ putCalBody body)
  | .readCal rt head bank => some (0x21, rt, putU8 head ++ putU8 bank)
  | .switchCal rt head bank => some (0x22, rt, putU8 head ++ putU8 bank)
  | .cancelCalSwitch rt head => some (0x23, rt, putU8 head)
  | .headRestore rt head => some (0x24, rt, putU8 head)
  | .defineMachine rt machine body => some (0x30, rt, putU8 machine ++ putMachineBody body)
  | .writeProfile rt machine bank body =>
    some (0x31, rt, putU8 machine ++ putU8 bank ++ putProfileBody body)
  | .readProfile rt machine bank => some (0x32, rt, putU8 machine ++ putU8 bank)
  | .switchProfile rt machine bank => some (0x33, rt, putU8 machine ++ putU8 bank)
  | .cancelProfileSwitch rt machine => some (0x34, rt, putU8 machine)
  | .pauseHandoff rt machine => some (0x35, rt, putU8 machine)
  | .resumeHandoff rt machine => some (0x36, rt, putU8 machine)
  | .readPockets rt machine first count =>
    some (0x37, rt, putU8 machine ++ putU8 first ++ putU8 count)
  | .create rt number type tag => some (0x40, rt, putU16 number ++ putU8 type ++ putOption 8 putTag tag)
  | .restore rt number body => some (0x41, rt, putU16 number ++ putRestoreBody body)
  | .changeType rt number type => some (0x42, rt, putU16 number ++ putU8 1 ++ putU8 type)
  | .bindTag rt number tag => some (0x42, rt, putU16 number ++ putU8 2 ++ putTag tag)
  | .unbindTag rt number => some (0x42, rt, putU16 number ++ putU8 3)
  | .rebuild rt number => some (0x42, rt, putU16 number ++ putU8 4)
  | .delete rt number => some (0x43, rt, putU16 number)
  | .readAssemblies rt start count => some (0x44, rt, putU16 start ++ putU8 count)
  | .forceReturn rt number => some (0x45, rt, putU16 number)
  | .writeHolds rt window body => some (0x50, rt, putU8 window ++ putHoldBody body)
  | .seedAudit rt value => some (0x51, rt, putU16 value)
  | .sweepSuspend rt => some (0x60, rt, [])
  | .sweepResume rt => some (0x61, rt, [])
  | .setProtection rt mode => some (0x70, rt, putU8 mode)
  | .lineReset rt => some (0x71, rt, [])
  | .unknownRequest code rt body => some (code, rt, body)
  | .powerOnReset | .pinReset | .frameArrival .. | .contact .. | .sample .. | .release .. | .issue ..
  | .returnHolder .. | .dataRequest .. | .usage .. | .general .. | .toolData ..
  | .transmissionCompletion .. | .handoffTake | .sweepStep | .sweepEnd | .settleTimeout ..
  | .atCaptureEnd .. | .atDrain .. | .resetPinRelease | .keyLineChange .. => none

/-! ## Frames (R160 to R164) -/

/-- The four port counters of the reception stages (R174). -/
inductive LineCounter where
  | checkError
  | malformed
  | sourceRefused
  | kindRefused
deriving DecidableEq, Repr

/-- What the stages of R160 to R164 make of a received frame. -/
inductive Arrival where
  /-- dropped and counted on the port -/
  | counted (c : LineCounter)
  /-- traffic local to the segment -/
  | ignored
  /-- handed to its consumer as this command -/
  | command (i : Instr)
deriving DecidableEq, Repr

/-- A GAUGE payload of a head (R164). -/
def gaugeArrival (head : Fin 4) : List Byte → Arrival
  | [] => .counted .malformed
  | k :: rest =>
    match k.toNat with
    | 0 =>
      match readAll (fun bs => do
          let (g, bs) ← getGauge bs
          let (tag, bs) ← getTag bs
          some ((g, tag), bs)) rest with
      | some (g, tag) => .command (.contact head g tag)
      | none => .counted .malformed
    | 1 =>
      match readAll getGauge rest with
      | some g => .command (.sample head g)
      | none => .counted .malformed
    | 2 =>
      match readAll getGauge rest with
      | some g => .command (.release head g)
      | none => .counted .malformed
    | _ => .counted .malformed

/-- A TAG payload of a counter (R164). -/
def tagArrival (counter : Fin 4) : List Byte → Arrival
  | [] => .counted .malformed
  | a :: rest =>
    match a.toNat with
    | 1 =>
      match readAll (fun bs => do
          let (tag, bs) ← getTag bs
          let (machine, bs) ← getU8 bs
          let (pocket, bs) ← getU8 bs
          some ((tag, machine, pocket), bs)) rest with
      | some (tag, machine, pocket) => .command (.issue counter tag machine pocket)
      | none => .counted .malformed
    | 2 =>
      match readAll getTag rest with
      | some tag => .command (.returnHolder counter tag)
      | none => .counted .malformed
    | _ => .counted .malformed

/-- An MGMT payload (R164, R176): a payload below 2 bytes is malformed; a code or body that spells no request
goes on as the row UNKNOWN_REQUEST. -/
def mgmtArrival : List Byte → Arrival
  | code :: rt :: body =>
    .command ((decodeRequest code.toNat rt.toNat body).getD (.unknownRequest code.toNat rt.toNat body))
  | _ => .counted .malformed

/-- A DATA_REQUEST payload of machine m (R164). -/
def dataRequestArrival (m : Nat) : List Byte → Arrival
  | [p] => if 1 ≤ p.toNat ∧ p.toNat ≤ 240 then .command (.dataRequest m p.toNat) else .counted .malformed
  | _ => .counted .malformed

/-- A USAGE payload of machine m (R164). -/
def usageArrival (m : Nat) (payload : List Byte) : Arrival :=
  match readAll getUsage payload with
  | some u => .command (.usage m u)
  | none => .counted .malformed

/-- A frame for the TH4 (R163, R164): the kinds each port takes, the sources it takes them from, the payload. -/
def arrivalForPart (machineDefined : Nat → Bool) (port : Port) (kind : FrameKind) (src : Nat)
    (payload : List Byte) : Arrival :=
  match port, kind with
  | .crib, .gauge =>
    if h : 2 ≤ src ∧ src ≤ 5 then gaugeArrival ⟨src - 2, by omega⟩ payload else .counted .sourceRefused
  | .crib, .tag =>
    if h : 6 ≤ src ∧ src ≤ 9 then tagArrival ⟨src - 6, by omega⟩ payload else .counted .sourceRefused
  | .crib, .mgmt => if src = 1 then mgmtArrival payload else .counted .sourceRefused
  | .hall, .dataRequest =>
    if machineDefined src then dataRequestArrival src payload else .counted .sourceRefused
  | .hall, .usage => if machineDefined src then usageArrival src payload else .counted .sourceRefused
  | _, _ => .counted .kindRefused

/-- The class of a frame by its destination (R162). -/
def arrivalByDestination (machineDefined : Nat → Bool) (port dstSeg : Port) (dst src : Nat)
    (kind : FrameKind) (payload : List Byte) : Arrival :=
  if dst = 0 then arrivalForPart machineDefined port kind src payload
  else if dstSeg = port then .ignored
  else
    match port, kind with
    | _, .general => .command (.general port dst src payload)
    | .crib, .toolData => .command (.toolData dst src payload)
    | _, _ => .counted .kindRefused

/-- The segment that a header byte's bit 7 names (section 9.2). -/
def headerSegment (b : Byte) : Port := if b.msb then .hall else .crib

/-- The node in bits 4 to 0 of a header byte (section 9.2). -/
def headerNode (b : Byte) : Nat := b.toNat % 32

/-- Bits 6 and 5 of a header byte are 0 (R161). -/
def headerClear (b : Byte) : Bool := b.toNat % 128 < 32

/-- The stages of R160 to R164 on a whole frame, start delimiter first. `machineDefined` is the machines'
defined field at the arrival (R163). -/
def arrivalOf (machineDefined : Nat → Bool) (port : Port) (bytes : Frame) : Arrival :=
  match bytes with
  | _ :: dst :: src :: kind :: len :: rest =>
    if rest.length < 2 then .counted .checkError
    else
      let payload := rest.take (rest.length - 2)
      if checkField (dst :: src :: kind :: len :: payload) ≠ rest.drop (rest.length - 2) then
        .counted .checkError
      else if len.toNat > 240 ∨ payload.length ≠ len.toNat ∨ headerClear dst = false
          ∨ headerClear src = false ∨ headerSegment src ≠ port then .counted .malformed
      else
        match frameKind? kind.toNat with
        | none => .counted .malformed
        | some k =>
          arrivalByDestination machineDefined port (headerSegment dst) (headerNode dst) (headerNode src) k
            payload
  | _ => .counted .checkError

/-- The port and frame that carry a command: the frame that a station sends, with the encodings of section
9.3 and R159; none for the rows that no frame carries. -/
def encodeFrame (i : Instr) : Option (Port × Frame) :=
  match i with
  | .contact head g tag =>
    some (.crib, buildFrame .crib 0 .crib (head + 2) 0x01 (putGauge .contact g ++ putTag tag))
  | .sample head g => some (.crib, buildFrame .crib 0 .crib (head + 2) 0x01 (putGauge .sample g))
  | .release head g => some (.crib, buildFrame .crib 0 .crib (head + 2) 0x01 (putGauge .release g))
  | .issue counter tag machine pocket =>
    some (.crib, buildFrame .crib 0 .crib (counter + 6) 0x02
      (putU8 1 ++ putTag tag ++ putU8 machine ++ putU8 pocket))
  | .returnHolder counter tag =>
    some (.crib, buildFrame .crib 0 .crib (counter + 6) 0x02 (putU8 2 ++ putTag tag))
  | .dataRequest machine pocket => some (.hall, buildFrame .hall 0 .hall machine 0x07 (putU8 pocket))
  | .usage machine report => some (.hall, buildFrame .hall 0 .hall machine 0x09 (putUsage report))
  | .general port dst src payload => some (port, buildFrame (otherPort port) dst port src 0x0F payload)
  | .toolData machine src payload => some (.crib, buildFrame .hall machine .crib src 0x08 payload)
  | i => (encodeRequest i).map fun (code, rt, body) =>
      (.crib, buildFrame .crib 0 .crib 1 0x04 (putU8 code ++ putU8 rt ++ body))

end Sys2Proof
end

