-- ==== Sys2Proof/Config.lean ====
section
/-! DEFINITION. What the part fixes: its capacities, its ranges, its identity, and the one free value. -/

namespace Sys2Proof.Config

/-- Places of each transit FIFO (R166). -/
def transitPlaces : Nat := 8

/-- Places of the answer FIFO (R177). -/
def answerPlaces : Nat := 8

/-- Places of the Notice Queue (R186). -/
def noticePlaces : Nat := 24

/-- Places of the wait list (R138). -/
def waitPlaces : Nat := 32

/-- Places of the handoff FIFO (R142). -/
def handoffPlaces : Nat := 4

/-- The end of the carried range in LU (00_scope.md 5.1). -/
def lengthLimit : Int := 999999999

/-- Where an event counter stays (00_scope.md 5.3). -/
def counterTop : Nat := 65535

/-- Where the discarded-notice count stays (R186). -/
def discardedTop : Nat := 255

/-- Readings a capture may take (R86). -/
def captureFrames : Nat := 64

/-- The largest ratio the ratio stage hands on (R71). -/
def ratioLimit : Nat := 1048575

/-- The reference temperature code, 20 degrees (00_scope.md 5.6). -/
def referenceCode : Int := 80

/-- Family code "UC", part version 1, revision code 3 (R182). The characters as ASCII codes 55h and 43h of one
byte each, and the two numbers as one byte each, are PRESUMED (log 26): R159 gives no character encoding. -/
def identity : List Nat := [0x55, 0x43, 1, 3]

/-- The paused field that a PAUSE_HANDOFF or RESUME_HANDOFF reply carries for a number that names no
machine. R147 puts the field in every reply and states no value there: a free value (DESIGN CHOICE, log 13). -/
opaque pausedOfNoMachine : Nat → Bool

end Sys2Proof.Config
end

