-- ==== Sys2Proof/Machine/State.lean ====
section
/-! DEFINITION. Everything the spec gives the part to hold, as plain data, and its values after power-on
reset. Each type names the rule that gives it. -/

namespace Sys2Proof.Machine

/-- A table indexed by number: pairs (key, value), keys strictly rising. -/
abbrev Table (α : Type) := List (Nat × α)

/-! ## Assemblies and types (chapters 1 and 2) -/

/-- The ten assembly states (section 1.3). -/
inductive AsmState where
  | built | measuring | partly | preset | rejected | remeasure | issued | inService | withdrawn | retired
deriving DecidableEq, Repr

/-- Withdrawal reasons (R152). -/
inductive Reason where
  | break_ | life | wear
deriving DecidableEq, Repr

/-- The two banks of a head or a machine. -/
inductive Bank where
  | bankA | bankB
deriving DecidableEq, Repr

/-- The two axes. -/
inductive Axis where
  | length | radius
deriving DecidableEq, Repr

/-- The required-axes field of a type (section 2.1). -/
inductive Axes where
  | length | lengthRadius
deriving DecidableEq, Repr

/-- Verdicts of R10, and INCOMPLETE of R92. -/
inductive Verdict where
  | pass | failLength | failRadius | clamped | incomplete
deriving DecidableEq, Repr

/-- An axis entry (section 1.1). -/
structure Entry where
  value : Int
  fresh : Bool
  clamped : Bool
  head : Nat
  bank : Bank
deriving DecidableEq, Repr

/-- An assembly record (section 1.1). -/
structure Assembly where
  type : Nat
  tag : Option Tag
  state : AsmState
  length : Option Entry
  radius : Option Entry
  lifeUsed : Nat
  lengthWear : Int
  radiusWear : Int
  location : Option Place
  /-- review-pending mark -/
  marked : Bool
  /-- recheck-on-return flag -/
  recheck : Bool
  reason : Option Reason
deriving DecidableEq, Repr

/-- A tool-type record (section 2.1). -/
structure TypeRecord where
  defined : Bool
  axes : Axes
  nominalL : Int
  lowerL : Int
  upperL : Int
  nominalR : Int
  lowerR : Int
  upperR : Int
  /-- settle band B -/
  band : Int
  lifeLimit : Nat
  lengthWearLimit : Int
  radiusWearLimit : Int
  auditThreshold : Nat
  inUse : Nat
deriving DecidableEq, Repr

/-- A type record after power-on reset (R28). -/
def TypeRecord.reset : TypeRecord :=
  { defined := false, axes := .length, nominalL := 0, lowerL := 0, upperL := 0, nominalR := 0, lowerR := 0
    upperR := 0, band := 1, lifeLimit := 0, lengthWearLimit := 0, radiusWearLimit := 0, auditThreshold := 0
    inUse := 0 }

/-- A hold window (section 1.6). -/
structure HoldWindow where
  enabled : Bool
  base : Nat
  exponent : Nat
  complement : Bool
deriving DecidableEq, Repr

/-- A hold window after power-on reset (R23). -/
def HoldWindow.reset : HoldWindow := { enabled := false, base := 0, exponent := 0, complement := false }

/-- Sweep states (R33). -/
inductive SweepState where
  | idle | running | suspended
deriving DecidableEq, Repr

/-- The items of the sweep engine (R33). -/
structure Sweep where
  state : SweepState
  cursor : Nat
  /-- mark count -/
  marks : Nat
  stepped : Nat
  /-- otherwise-cleared count -/
  otherwise : Nat
deriving DecidableEq, Repr

/-- The sweep after power-on reset (R33, R40). -/
def Sweep.reset : Sweep := { state := .idle, cursor := 0, marks := 0, stepped := 0, otherwise := 0 }

/-! ## Heads (chapters 3 to 5) -/

/-- A fault record (section 3.2). -/
structure FaultRecord where
  /-- offending reference count -/
  count : Nat
  kind : SampleKind
  bank : Bank
deriving DecidableEq, Repr

/-- Head states (section 3.2); the fault record is present exactly in FAULT. -/
inductive HeadState where
  | uncalibrated
  | ready
  | fault (record : FaultRecord)
deriving DecidableEq, Repr

/-- A calibration bank's stored content (section 4.1). -/
structure CalBank where
  breakpoints : List Breakpoint
  /-- Mnum -/
  scaleNum : Nat
  /-- Mden -/
  scaleDen : Nat
  /-- zero offset Z -/
  zero : Int
  /-- thermal coefficient, ppm per degree -/
  alpha : Nat
  refMin : Nat
  refMax : Nat
  /-- settle depth K -/
  depth : Nat
deriving DecidableEq, Repr

/-- A calibration bank after power-on reset (R57). -/
def CalBank.reset : CalBank :=
  { breakpoints := [], scaleNum := 0, scaleDen := 0, zero := 0, alpha := 0, refMin := 0, refMax := 0
    depth := 0 }

/-- Invalidity reasons of a calibration bank (R58). -/
inductive CalReason where
  | breakpointCount | breakpointOrder | scaleZero | window | settleDepth
deriving DecidableEq, Repr

/-- One entry of a sample history (R77). -/
structure Sample where
  value : Int
  clamped : Bool
deriving DecidableEq, Repr

/-- The contents of an ARMED slot (R77). -/
structure Capture where
  assembly : Nat
  axis : Axis
  /-- prior state of the assembly -/
  prior : AsmState
  bank : Bank
  /-- oldest first -/
  history : List Sample
  /-- frame count -/
  frames : Nat
deriving DecidableEq, Repr

/-- A capture slot (R77); contents are present exactly in ARMED. -/
inductive Slot where
  | idle
  | armed (capture : Capture)
  | latched
deriving DecidableEq, Repr

/-- What the part holds for one head. -/
structure Head where
  status : HeadState
  bankA : CalBank
  bankB : CalBank
  active : Bank
  /-- target of the pending calibration switch -/
  pendingCal : Option Bank
  slot : Slot
  gaugeDiscarded : Nat
deriving DecidableEq, Repr

/-- A head after power-on reset (R43, R56, R57, R77). -/
def Head.reset : Head :=
  { status := .uncalibrated, bankA := CalBank.reset, bankB := CalBank.reset, active := .bankA
    pendingCal := none, slot := .idle, gaugeDiscarded := 0 }

/-! ## Machines (chapter 7) -/

/-- An output slot as stored (R123); source and unit are kept as their codes. -/
structure OutputSlot where
  source : Nat
  unit : Nat
  width : Nat
  negate : Bool
  blankZero : Bool
deriving DecidableEq, Repr

/-- A profile bank's stored content (R123). -/
structure Profile where
  slots : List OutputSlot
  /-- gauge-line offset -/
  offset : Int
deriving DecidableEq, Repr

/-- A profile bank after power-on reset (R119). -/
def Profile.reset : Profile := { slots := [], offset := 0 }

/-- Invalidity reasons of a profile bank (R124); a slot's reason carries its position, 1 to 12. -/
inductive ProfileReason where
  | slotCount
  | source (position : Nat)
  | width (position : Nat)
  | unit (position : Nat)
deriving DecidableEq, Repr

/-- A pending profile switch (R119, R133). -/
structure ProfileSwitch where
  target : Bank
  /-- marked count -/
  marked : Nat
  /-- the marked count set at the request, which SWITCH_DONE reports (R136; log 17) -/
  requested : Nat
deriving DecidableEq, Repr

/-- A machine definition (R119). -/
structure MachineDef where
  defined : Bool
  magazine : Nat
  /-- push-on-issue -/
  push : Bool
  paused : Bool
  bankA : Profile
  bankB : Profile
  active : Bank
  switch : Option ProfileSwitch
deriving DecidableEq, Repr

/-- A machine definition after power-on reset (R119). -/
def MachineDef.reset : MachineDef :=
  { defined := false, magazine := 1, push := false, paused := false, bankA := Profile.reset
    bankB := Profile.reset, active := .bankA, switch := none }

/-! ## Handoff (chapter 8) -/

/-- An entry of the wait list (R138). -/
structure WaitEntry where
  machine : Nat
  pocket : Nat
  /-- pre-switch mark -/
  marked : Bool
deriving DecidableEq, Repr

/-- A formatted output slot (R128, R145). -/
structure SentSlot where
  width : Nat
  saturated : Bool
  blank : Bool
  absent : Bool
  /-- 0 when blank or absent -/
  value : Int
deriving DecidableEq, Repr

/-- Statuses of a TOOL_DATA frame with what each carries (R144, R145). -/
inductive ToolContent where
  | empty
  | noProfile
  | locked (assembly : Nat) (bank : Bank) (slots : List SentSlot)
  | served (assembly : Nat) (bank : Bank) (slots : List SentSlot)
deriving DecidableEq, Repr

/-- A frame of the handoff FIFO with its void mark (R142, R146). -/
structure HandoffFrame where
  machine : Nat
  pocket : Nat
  content : ToolContent
  void : Bool
deriving DecidableEq, Repr

/-- Origins of a handoff request (R140). -/
inductive Origin where
  | dataRequest | pushOnIssue | withdrawal
deriving DecidableEq, Repr

/-! ## Answers (chapters 6 and 10) -/

/-- Statuses of an ISSUE_ANSWER (R100). -/
inductive AnswerStatus where
  | granted | unknownTag | held | notReady | lifeSpent | unknownMachine | badPocket | pocketOccupied
  | returnedPreset | returnedRemeasure | returnedRetired | notIssued
deriving DecidableEq, Repr

/-- Actions of a TAG frame. -/
inductive TagAction where
  | issue | return_
deriving DecidableEq, Repr

/-- The fields of an ISSUE_ANSWER (R100). -/
structure IssueAnswer where
  action : TagAction
  tag : Tag
  status : AnswerStatus
  assembly : Option Nat
  place : Option Place
  actual : Option AsmState
  location : Option Place
  /-- life used and life limit -/
  life : Option (Nat × Nat)
  occupying : Option Nat
  reason : Option Reason
  draw : Option Nat
deriving DecidableEq, Repr

/-- Reply statuses (section 10.1). -/
inductive Status where
  | ok | noChange | busy | protected_ | locked | badIndex | invalidTable | state | redundant | activeBank
  | tagInUse | unknownRequest
deriving DecidableEq, Repr

/-- Protection modes (R178). -/
inductive Protection where
  | open_ | keyed | locked
deriving DecidableEq, Repr

/-- One copied record of READ_ASSEMBLIES (R20). -/
structure CopiedRecord where
  number : Nat
  record : Assembly
  held : Bool
deriving DecidableEq, Repr

/-- One occupied pocket of READ_POCKETS (R102). -/
structure PocketReport where
  pocket : Nat
  assembly : Nat
  state : AsmState
  reason : Option Reason
  recheck : Bool
  held : Bool
deriving DecidableEq, Repr

/-- What READ_STATUS reports of one head (R182). -/
structure HeadReport where
  status : HeadState
  active : Bank
  pendingCal : Option Bank
deriving DecidableEq, Repr

/-- What READ_STATUS reports of one slot (R77, R182). -/
structure SlotReport where
  state : Nat
  /-- assembly, axis, prior state, bank, frame count, history entries; in ARMED -/
  capture : Option (Nat × Axis × AsmState × Bank × Nat × Nat)
deriving DecidableEq, Repr

/-- The fields of a READ_STATUS reply (R182). -/
structure StatusReport where
  heads : List HeadReport
  slots : List SlotReport
  sweep : Sweep
  /-- machine, target bank, marked count of each pending profile switch -/
  switches : List (Nat × Bank × Nat)
  protection : Protection
  key : Bool
  protectionError : Bool
  generation : Nat
  /-- crib-transit, hall-transit, answer FIFO, notice queue, wait list, handoff FIFO -/
  queues : List Nat
  discardedNotices : Nat
  audit : Nat
deriving DecidableEq, Repr

/-- The fields that a reply carries after the table generation (R176, and each request's rule). -/
inductive ReplyBody where
  /-- the generation alone, or a reply whose rule names no field (log 11) -/
  | none
  | identity
  | status (r : StatusReport)
  | counters (values : List Nat)
  | typeNumber (type : Nat)
  | typeRecord (type : Nat) (record : TypeRecord)
  | calBank (head : Nat) (bank : Bank) (content : CalBank) (reason : Option CalReason) (active : Bool)
      (pending : Option Bank) (state : HeadState)
  | calWritten (head : Nat) (bank : Bank) (reason : Option CalReason) (active : Bool) (state : HeadState)
  | calSwitched (active : Bank) (state : HeadState)
  | calPending (target active : Bank)
  | calInvalid (reason : CalReason)
  /-- REDUNDANT: the target that was cancelled, or absent -/
  | redundant (cancelled : Option Bank)
  | cancelled (target : Bank)
  | headRestored (head : Nat) (state : HeadState)
  | definition (defined : Bool) (magazine : Nat) (push : Bool)
  | profileWritten (reason : Option ProfileReason) (active : Bool)
  | profileBank (machine : Nat) (bank : Bank) (content : Profile) (reason : Option ProfileReason)
      (active defined : Bool) (magazine : Nat) (push paused : Bool) (pending : Option (Bank × Nat))
  | profileSwitched (active : Bank)
  | profilePending (target : Bank) (marked : Nat) (active : Bank)
  | profileInvalid (reason : ProfileReason)
  | handoffPaused (machine : Nat) (paused : Bool) (waiting : Nat)
  | pockets (machine : Nat) (defined : Bool) (magazine examined : Nat) (next : Option Nat)
      (entries : List PocketReport)
  | assembly (number : Nat)
  | assemblyState (number : Nat) (state : AsmState)
  | assemblies (examined next : Nat) (windows : List HoldWindow) (records : List CopiedRecord)
  | windows (windows : List HoldWindow)
  | forcedReturn (number : Nat) (place : Place) (draw : Nat) (outcome : AnswerStatus) (state : AsmState)
      (reason : Option Reason)
  | audit (value : Nat)
  | sweep (state : SweepState) (cursor marks : Nat)
  | protection (mode : Protection)
deriving DecidableEq, Repr

/-- A frame of the answer FIFO (R177). -/
inductive Answer where
  /-- an ISSUE_ANSWER for a counter -/
  | issueAnswer (counter : Fin 4) (answer : IssueAnswer)
  /-- an MGMT_REPLY: code and request tag echoed, status, table generation, fields -/
  | reply (code rt : Nat) (status : Status) (generation : Nat) (body : ReplyBody)
deriving DecidableEq, Repr

/-! ## Notices (chapter 10) -/

/-- Abort reasons of CAPTURE_ABORTED (R87, R92). -/
inductive AbortReason where
  | settleTimeout | releasedEarly | recontact | referenceFault
deriving DecidableEq, Repr

/-- Reasons of CONTACT_REFUSED (R92). -/
inductive RefusalReason where
  | headNotReady | unknownTag | held | busyElsewhere | state | axisNotRequired
deriving DecidableEq, Repr

/-- Reasons of TRANSIT_BLOCKED (R168). -/
inductive BlockReason where
  | notAtPocket | withdrawnNotLocked | pocketNotEmpty | statusRefused
deriving DecidableEq, Repr

/-- The bodies of the twelve notice kinds (R35, R52, R67, R92, R116, R136, R140, R150, R153, R168). -/
inductive NoticeBody where
  | captureDone (head assembly : Nat) (axis : Axis) (value mean : Int) (clamp : Bool) (bank : Bank)
      (frames : Nat) (verdict : Verdict) (state : AsmState)
  | captureAborted (head assembly : Nat) (axis : Axis) (reason : AbortReason) (restored : AsmState)
      (frames entries : Nat)
  | contactRefused (head : Nat) (reason : RefusalReason) (tag : Tag) (axis : Option Axis)
      (assembly : Option Nat) (state : Option AsmState) (holding : Option Nat)
  | headFault (head count : Nat) (kind : SampleKind) (bank : Bank) (refMin refMax : Nat)
      (aborted : Option Nat) (cancelled : Option Bank)
  /-- unit CALIBRATION; the assembly is present for AT_CAPTURE_END and absent for IMMEDIATE -/
  | calSwitchDone (head : Nat) (new previous : Bank) (atCaptureEnd : Option Nat) (state : HeadState)
  /-- unit PROFILE; `atDrain` tells AT_DRAIN from IMMEDIATE -/
  | profileSwitchDone (machine : Nat) (new previous : Bank) (atDrain : Bool) (served : Nat)
  | calSwitchCancelled (head : Nat) (target : Bank)
  | profileSwitchCancelled (machine : Nat) (target : Bank) (marks : Nat)
  | sweepDone (stepped otherwise : Nat)
  /-- the counter is absent for a forced return -/
  | auditSelected (assembly type draw threshold : Nat) (place : Place) (counter : Option (Fin 4))
  | withdrawn (assembly type : Nat) (place : Place) (reason : Reason) (before : AsmState) (lifeUsed : Nat)
      (lengthWear radiusWear : Int) (lifeLimit : Nat) (lengthWearLimit radiusWearLimit : Int)
  | usageMismatch (machine pocket reported : Nat) (atPocket : Option Nat) (minutes : Nat)
      (lengthWear radiusWear : Int) (broken : Bool)
  | transitBlocked (sender machine pocket status : Nat) (named atPocket : Option Nat)
      (stateAt : Option AsmState) (reason : BlockReason)
  | requestDropped (machine pocket : Nat) (origin : Origin) (assembly : Option Nat)
deriving DecidableEq, Repr

/-- A notice in the queue (R186). -/
structure Notice where
  /-- discarded-before count -/
  before : Nat
  body : NoticeBody
deriving DecidableEq, Repr

/-! ## Ports and arbiters (chapter 9) -/

/-- The receive state and the five counters of a port (R165, R174). -/
structure PortState where
  /-- bytes of the frame now arriving -/
  receiving : List Byte
  checkError : Nat
  malformed : Nat
  sourceRefused : Nat
  kindRefused : Nat
  transitDropped : Nat
deriving DecidableEq, Repr

/-- A port after power-on reset (R165, R174). -/
def PortState.reset : PortState :=
  { receiving := [], checkError := 0, malformed := 0, sourceRefused := 0, kindRefused := 0
    transitDropped := 0 }

/-- Sources of the crib arbiter, in cyclic order (R170). -/
inductive CribSource where
  | transit | answer | notice
deriving DecidableEq, Repr

/-- Sources of the hall arbiter, in cyclic order (R170). -/
inductive HallSource where
  | transit | handoff
deriving DecidableEq, Repr

/-- The crib arbiter: IDLE, or TRANSMITTING with the granted source and the frame on the line (R170). -/
structure CribEgress where
  sending : Option (CribSource × Frame)
  pointer : CribSource
deriving DecidableEq, Repr

/-- The hall arbiter (R170). -/
structure HallEgress where
  sending : Option (HallSource × Frame)
  pointer : HallSource
deriving DecidableEq, Repr

/-! ## The whole part -/

/-- Everything the part holds, and the queue of commands that wait for it. -/
structure State where
  /-- the MODEL's own: commands waiting, first in first out -/
  pending : List Instr
  /-- level of the RESET pin (R185) -/
  resetPin : Bool
  /-- level of the KEY line (R178) -/
  key : Bool
  crib : PortState
  hall : PortState
  cribTransit : List Frame
  hallTransit : List Frame
  cribEgress : CribEgress
  hallEgress : HallEgress
  guardBlocked : Nat
  heads : Vector Head 4
  types : Vector TypeRecord 128
  sweep : Sweep
  /-- records by assembly number 0 to 1023; an empty slot is not listed -/
  assemblies : Table Assembly
  /-- assembly numbers by holder tag, the tag read as a number (R5) -/
  tagMap : Table Nat
  holds : Vector HoldWindow 4
  /-- assembly numbers by place, the place read as the number machine times 256 plus pocket (R101) -/
  issueMap : Table Nat
  /-- audit generator value (R114) -/
  audit : BitVec 15
  tagDropped : Vector Nat 4
  /-- machines 1 to 31, machine m at index m - 1 -/
  machines : Vector MachineDef 31
  waitList : List WaitEntry
  handoff : List HandoffFrame
  handoffDropped : Nat
  usageMismatch : Nat
  protection : Protection
  protectionError : Bool
  generation : Nat
  mgmtDropped : Nat
  answers : List Answer
  notices : List Notice
  discardedNotices : Nat
deriving DecidableEq, Repr

/-- The part right after power-on reset: every value is the spec's (R23, R28, R33, R40, R43, R57, R77, R99,
R101, R114, R119, R138, R142, R155, R165, R166, R168, R170, R174, R185, R187), but for the two pin levels
(DESIGN CHOICE, log 7). -/
def State.reset : State :=
  { pending := [], resetPin := false, key := false
    crib := PortState.reset, hall := PortState.reset, cribTransit := [], hallTransit := []
    cribEgress := { sending := none, pointer := .transit }
    hallEgress := { sending := none, pointer := .transit }
    guardBlocked := 0
    heads := Vector.replicate 4 Head.reset
    types := Vector.replicate 128 TypeRecord.reset
    sweep := Sweep.reset
    assemblies := [], tagMap := []
    holds := Vector.replicate 4 HoldWindow.reset
    issueMap := []
    audit := 1
    tagDropped := Vector.replicate 4 0
    machines := Vector.replicate 31 MachineDef.reset
    waitList := [], handoff := [], handoffDropped := 0, usageMismatch := 0
    protection := .open_, protectionError := false, generation := 0, mgmtDropped := 0
    answers := [], notices := [], discardedNotices := 0 }

/-- The block has no fault that stops it (INVENTORY.md, Faults); no meaning of the model raises this one. It
stands for a stop the spec does not describe, so raising it would be safe. -/
inductive Fault where
  /-- raised by nothing -/
  | stopped
deriving DecidableEq, Repr

/-- Why a command has no meaning. -/
inductive Refusal where
  /-- raised by `exec` alone, for a row that has no meaning yet; safe: nothing is proved of it -/
  | notModelled (mnemonic : String)
deriving DecidableEq, Repr

end Sys2Proof.Machine
end

