-- ==== Sys2Proof/Machine/Wire.lean ====
section
/-! DEFINITION. The frames that the part originates, byte by byte: the codes and layouts of section 9.3 and
the encodings of R159. -/

namespace Sys2Proof.Machine

/-! ## Codes (section 9.3) -/

/-- Assembly state codes (section 9.3). -/
def asmStateCode : AsmState → Nat
  | .built => 0
  | .measuring => 1
  | .partly => 2
  | .preset => 3
  | .rejected => 4
  | .remeasure => 5
  | .issued => 6
  | .inService => 7
  | .withdrawn => 8
  | .retired => 9

/-- Withdrawal reason codes (section 9.3). -/
def reasonCode : Reason → Nat
  | .break_ => 1
  | .life => 2
  | .wear => 3

/-- Bank codes (section 9.3). -/
def bankCode : Bank → Nat
  | .bankA => 0
  | .bankB => 1

/-- Axis codes (section 9.3). -/
def axisCode : Axis → Nat
  | .length => 0
  | .radius => 1

/-- Required-axes codes (section 9.3). -/
def axesCode : Axes → Nat
  | .length => 0
  | .lengthRadius => 1

/-- Freshness: 0 FRESH, 1 STALE. -/
def freshnessCode (fresh : Bool) : Nat := if fresh then 0 else 1

/-- Verdict codes (section 9.3). -/
def verdictCode : Verdict → Nat
  | .pass => 0
  | .failLength => 1
  | .failRadius => 2
  | .clamped => 3
  | .incomplete => 4

/-- Head state codes (section 9.3). -/
def headStateCode : HeadState → Nat
  | .uncalibrated => 0
  | .ready => 1
  | .fault _ => 2

/-- Slot state codes (section 9.3). -/
def slotCode : Slot → Nat
  | .idle => 0
  | .armed _ => 1
  | .latched => 2

/-- Sweep state codes (section 9.3). -/
def sweepStateCode : SweepState → Nat
  | .idle => 0
  | .running => 1
  | .suspended => 2

/-- Capture abort reason codes (section 9.3). -/
def abortReasonCode : AbortReason → Nat
  | .settleTimeout => 1
  | .releasedEarly => 2
  | .recontact => 3
  | .referenceFault => 4

/-- Contact refusal reason codes (section 9.3). -/
def refusalReasonCode : RefusalReason → Nat
  | .headNotReady => 1
  | .unknownTag => 2
  | .held => 3
  | .busyElsewhere => 4
  | .state => 5
  | .axisNotRequired => 6

/-- 0 none, else the code of the first failing condition of R58. -/
def calReasonCode : Option CalReason → Nat
  | none => 0
  | some .breakpointCount => 1
  | some .breakpointOrder => 2
  | some .scaleZero => 3
  | some .window => 4
  | some .settleDepth => 5

/-- The reason's code followed by the slot position, 0 for none and SLOT_COUNT. -/
def putProfileReason : Option ProfileReason → List Byte
  | none => putU8 0 ++ putU8 0
  | some .slotCount => putU8 1 ++ putU8 0
  | some (.source k) => putU8 2 ++ putU8 k
  | some (.width k) => putU8 3 ++ putU8 k
  | some (.unit k) => putU8 4 ++ putU8 k

/-- Protection mode codes (section 9.3). -/
def protectionCode : Protection → Nat
  | .open_ => 0
  | .keyed => 1
  | .locked => 2

/-- Request origin codes (section 9.3). -/
def originCode : Origin → Nat
  | .dataRequest => 0
  | .pushOnIssue => 1
  | .withdrawal => 2

/-- Guard block reason codes (section 9.3). -/
def blockReasonCode : BlockReason → Nat
  | .notAtPocket => 1
  | .withdrawnNotLocked => 2
  | .pocketNotEmpty => 3
  | .statusRefused => 4

/-- TAG action codes (section 9.3). -/
def tagActionCode : TagAction → Nat
  | .issue => 1
  | .return_ => 2

/-- ISSUE_ANSWER statuses, which are also the return outcomes. -/
def answerStatusCode : AnswerStatus → Nat
  | .granted => 0x00
  | .unknownTag => 0x01
  | .held => 0x02
  | .notReady => 0x03
  | .lifeSpent => 0x04
  | .unknownMachine => 0x05
  | .badPocket => 0x06
  | .pocketOccupied => 0x07
  | .returnedPreset => 0x10
  | .returnedRemeasure => 0x11
  | .returnedRetired => 0x12
  | .notIssued => 0x13

/-- Reply statuses (section 10.1). -/
def statusCode : Status → Nat
  | .ok => 0x00
  | .noChange => 0x01
  | .busy => 0x02
  | .protected_ => 0x03
  | .locked => 0x04
  | .badIndex => 0x05
  | .invalidTable => 0x06
  | .state => 0x07
  | .redundant => 0x08
  | .activeBank => 0x09
  | .tagInUse => 0x0A
  | .unknownRequest => 0x0B

/-! ## ISSUE_ANSWER (27 bytes) -/

/-- The presence byte of an ISSUE_ANSWER, bit 0 first. -/
def presence (fields : List Bool) : Nat := fields.foldr (fun b n => b.toNat + 2 * n) 0

/-- An ISSUE_ANSWER payload (section 9.3). -/
def putIssueAnswer (a : IssueAnswer) : List Byte :=
  putU8 (tagActionCode a.action) ++ putTag a.tag ++ putU8 (answerStatusCode a.status)
    ++ putU8 (presence [a.assembly.isSome, a.place.isSome, a.actual.isSome, a.location.isSome, a.life.isSome,
        a.occupying.isSome, a.reason.isSome, a.draw.isSome])
    ++ putU16 (a.assembly.getD 0)
    ++ putPlace (a.place.getD ⟨0, 0⟩)
    ++ putU8 ((a.actual.map asmStateCode).getD 0)
    ++ putPlace (a.location.getD ⟨0, 0⟩)
    ++ putU16 (a.life.getD (0, 0)).1 ++ putU16 (a.life.getD (0, 0)).2
    ++ putU16 (a.occupying.getD 0)
    ++ putU8 ((a.reason.map reasonCode).getD 0)
    ++ putU16 (a.draw.getD 0)

/-! ## Reply bodies -/

/-- An axis entry in the order of section 1.1. -/
def putEntry (e : Entry) : List Byte :=
  putI32 e.value ++ putU8 (freshnessCode e.fresh) ++ putBool e.clamped ++ putU8 e.head ++ putU8 (bankCode e.bank)

/-- A record with every field of section 1.1 in order, the present field first. -/
def putRecord (r : Assembly) : List Byte :=
  putBool true ++ putU8 r.type ++ putOption 8 putTag r.tag ++ putU8 (asmStateCode r.state)
    ++ putOption 8 putEntry r.length ++ putOption 8 putEntry r.radius ++ putU16 r.lifeUsed
    ++ putI32 r.lengthWear ++ putI32 r.radiusWear ++ putOption 2 putPlace r.location ++ putBool r.marked
    ++ putBool r.recheck ++ putOption 1 (fun x => putU8 (reasonCode x)) r.reason

/-- A type record in the order of section 2.1, the in-use count last. -/
def putTypeRecord (t : TypeRecord) : List Byte :=
  putBool t.defined ++ putU8 (axesCode t.axes) ++ putI32 t.nominalL ++ putI32 t.lowerL ++ putI32 t.upperL
    ++ putI32 t.nominalR ++ putI32 t.lowerR ++ putI32 t.upperR ++ putI32 t.band ++ putU16 t.lifeLimit
    ++ putI32 t.lengthWearLimit ++ putI32 t.radiusWearLimit ++ putU16 t.auditThreshold ++ putU16 t.inUse

/-- A hold window in the order of section 1.6. -/
def putWindow (w : HoldWindow) : List Byte :=
  putBool w.enabled ++ putU16 w.base ++ putU8 w.exponent ++ putBool w.complement

/-- A calibration bank in the order of section 4.1. -/
def putCalBank (b : CalBank) : List Byte :=
  putU8 b.breakpoints.length ++ putList putBreakpoint b.breakpoints ++ putU16 b.scaleNum ++ putU16 b.scaleDen
    ++ putI32 b.zero ++ putU8 b.alpha ++ putU16 b.refMin ++ putU16 b.refMax ++ putU8 b.depth

/-- A validity and its reason. -/
def putCalValidity (r : Option CalReason) : List Byte := putBool r.isNone ++ putU8 (calReasonCode r)

/-- An optional bank. -/
def putBankOption (b : Option Bank) : List Byte := putOption 1 (fun x => putU8 (bankCode x)) b

/-- An output slot in the order of R123. -/
def putSlot (t : OutputSlot) : List Byte :=
  putU8 t.source ++ putU8 t.unit ++ putU8 t.width ++ putBool t.negate ++ putBool t.blankZero

/-- A profile bank in the order of R123. -/
def putProfile (p : Profile) : List Byte :=
  putU8 p.slots.length ++ putList putSlot p.slots ++ putI32 p.offset

/-- A head in READ_STATUS (R182). -/
def putHeadReport (h : HeadReport) : List Byte :=
  putU8 (headStateCode h.status) ++ putU8 (bankCode h.active) ++ putBankOption h.pendingCal
    ++ putOption 4 (fun f : FaultRecord => putU16 f.count ++ putU8 (sampleKindCode f.kind) ++ putU8 (bankCode f.bank))
        (match h.status with
         | .fault f => some f
         | .uncalibrated | .ready => none)

/-- A capture slot in READ_STATUS (R182). -/
def putSlotReport (r : SlotReport) : List Byte :=
  putU8 r.state ++ putOption 7 (fun c : Nat × Axis × AsmState × Bank × Nat × Nat =>
    putU16 c.1 ++ putU8 (axisCode c.2.1) ++ putU8 (asmStateCode c.2.2.1) ++ putU8 (bankCode c.2.2.2.1)
      ++ putU8 c.2.2.2.2.1 ++ putU8 c.2.2.2.2.2) r.capture

/-- The READ_STATUS fields in the order of R182. -/
def putStatusReport (r : StatusReport) : List Byte :=
  (r.heads.map putHeadReport).flatten ++ (r.slots.map putSlotReport).flatten
    ++ putU8 (sweepStateCode r.sweep.state) ++ putU16 r.sweep.cursor ++ putU16 r.sweep.marks
    ++ putU16 r.sweep.stepped ++ putU16 r.sweep.otherwise
    ++ putList (fun x : Nat × Bank × Nat => putU8 x.1 ++ putU8 (bankCode x.2.1) ++ putU8 x.2.2) r.switches
    ++ putU8 (protectionCode r.protection) ++ putBool r.key ++ putBool r.protectionError
    ++ putU16 r.generation ++ (r.queues.map putU8).flatten ++ putU8 r.discardedNotices ++ putU16 r.audit

/-- An occupied pocket in READ_POCKETS (R102). -/
def putPocketReport (p : PocketReport) : List Byte :=
  putU8 p.pocket ++ putU16 p.assembly ++ putU8 (asmStateCode p.state)
    ++ putOption 1 (fun x => putU8 (reasonCode x)) p.reason ++ putBool p.recheck ++ putBool p.held

/-- The fields of a reply after the generation, in the order in which the request's rule names them. -/
def putReplyBody : ReplyBody → List Byte
  | .none => []
  | .identity => (Config.identity.map putU8).flatten
  | .status r => putStatusReport r
  | .counters values => (values.map putU16).flatten
  | .typeNumber type => putU8 type
  | .typeRecord type record => putU8 type ++ putTypeRecord record
  | .calBank head bank content reason active pending state =>
    putU8 head ++ putU8 (bankCode bank) ++ putCalBank content ++ putCalValidity reason ++ putBool active
      ++ putBankOption pending ++ putU8 (headStateCode state)
  | .calWritten head bank reason active state =>
    putU8 head ++ putU8 (bankCode bank) ++ putCalValidity reason ++ putBool active
      ++ putU8 (headStateCode state)
  | .calSwitched active state => putU8 (bankCode active) ++ putU8 (headStateCode state)
  | .calPending target active => putU8 (bankCode target) ++ putU8 (bankCode active)
  | .calInvalid reason => putU8 (calReasonCode (some reason))
  | .redundant cancelled => putBankOption cancelled
  | .cancelled target => putU8 (bankCode target)
  | .headRestored head state => putU8 head ++ putU8 (headStateCode state)
  | .definition defined magazine push => putBool defined ++ putU8 magazine ++ putBool push
  | .profileWritten reason active => putBool reason.isNone ++ putProfileReason reason ++ putBool active
  | .profileBank machine bank content reason active defined magazine push paused pending =>
    putU8 machine ++ putU8 (bankCode bank) ++ putProfile content ++ putBool reason.isNone
      ++ putProfileReason reason ++ putBool active ++ putBool defined ++ putU8 magazine ++ putBool push
      ++ putBool paused ++ putOption 2 (fun x : Bank × Nat => putU8 (bankCode x.1) ++ putU8 x.2) pending
  | .profileSwitched active => putU8 (bankCode active)
  | .profilePending target marked active => putU8 (bankCode target) ++ putU8 marked ++ putU8 (bankCode active)
  | .profileInvalid reason => putProfileReason (some reason)
  | .handoffPaused machine paused waiting => putU8 machine ++ putBool paused ++ putU8 waiting
  | .pockets machine defined magazine examined next entries =>
    putU8 machine ++ putBool defined ++ putU8 magazine ++ putU8 examined ++ putOption 1 putU8 next
      ++ putList putPocketReport entries
  | .assembly number => putU16 number
  | .assemblyState number state => putU16 number ++ putU8 (asmStateCode state)
  | .assemblies examined next windows records =>
    putU16 examined ++ putU16 next ++ (windows.map putWindow).flatten
      ++ putList (fun c : CopiedRecord => putU16 c.number ++ putRecord c.record ++ putBool c.held) records
  | .windows windows => (windows.map putWindow).flatten
  | .forcedReturn number place draw outcome state reason =>
    putU16 number ++ putPlace place ++ putU16 draw ++ putU8 (answerStatusCode outcome)
      ++ putU8 (asmStateCode state) ++ putOption 1 (fun x => putU8 (reasonCode x)) reason
  | .audit value => putU16 value
  | .sweep state cursor marks => putU8 (sweepStateCode state) ++ putU16 cursor ++ putU16 marks
  | .protection mode => putU8 (protectionCode mode)

/-- The frame of an answer: source node 0 of the crib segment, to the counter or to the server (R157). -/
def answerFrame : Answer → Frame
  | .issueAnswer counter answer => buildFrame .crib (counter + 6) .crib 0 0x03 (putIssueAnswer answer)
  | .reply code rt status generation body =>
    buildFrame .crib 1 .crib 0 0x05
      (putU8 code ++ putU8 rt ++ putU8 (statusCode status) ++ putU16 generation ++ putReplyBody body)

/-! ## Notices -/

/-- A notice's kind code (section 9.3) and body. -/
def putNoticeBody : NoticeBody → Nat × List Byte
  | .captureDone head assembly axis value mean clamp bank frames verdict state =>
    (1, putU8 head ++ putU16 assembly ++ putU8 (axisCode axis) ++ putI32 value ++ putI32 mean ++ putBool clamp
      ++ putU8 (bankCode bank) ++ putU8 frames ++ putU8 (verdictCode verdict) ++ putU8 (asmStateCode state))
  | .captureAborted head assembly axis reason restored frames entries =>
    (2, putU8 head ++ putU16 assembly ++ putU8 (axisCode axis) ++ putU8 (abortReasonCode reason)
      ++ putU8 (asmStateCode restored) ++ putU8 frames ++ putU8 entries)
  | .contactRefused head reason tag axis assembly state holding =>
    (3, putU8 head ++ putU8 (refusalReasonCode reason) ++ putTag tag
      ++ putOption 1 (fun x => putU8 (axisCode x)) axis ++ putOption 2 putU16 assembly
      ++ putOption 1 (fun x => putU8 (asmStateCode x)) state ++ putOption 1 putU8 holding)
  | .headFault head count kind bank refMin refMax aborted cancelled =>
    (4, putU8 head ++ putU16 count ++ putU8 (sampleKindCode kind) ++ putU8 (bankCode bank) ++ putU16 refMin
      ++ putU16 refMax ++ putOption 2 putU16 aborted ++ putBankOption cancelled)
  | .calSwitchDone head new previous atCaptureEnd state =>
    (5, putU8 0 ++ putU8 head ++ putU8 (bankCode new) ++ putU8 (bankCode previous)
      ++ putU8 (if atCaptureEnd.isSome then 1 else 0) ++ putOption 2 putU16 atCaptureEnd
      ++ putU8 (headStateCode state))
  | .profileSwitchDone machine new previous atDrain served =>
    (5, putU8 1 ++ putU8 machine ++ putU8 (bankCode new) ++ putU8 (bankCode previous)
      ++ putU8 (if atDrain then 2 else 0) ++ putU8 served)
  | .calSwitchCancelled head target => (6, putU8 0 ++ putU8 head ++ putU8 (bankCode target) ++ putU8 0)
  | .profileSwitchCancelled machine target marks =>
    (6, putU8 1 ++ putU8 machine ++ putU8 (bankCode target) ++ putU8 0 ++ putU8 marks)
  | .sweepDone stepped otherwise => (7, putU16 stepped ++ putU16 otherwise)
  | .auditSelected assembly type draw threshold place counter =>
    (8, putU16 assembly ++ putU8 type ++ putU16 draw ++ putU16 threshold ++ putPlace place
      ++ (match counter with
          | some c => putU8 0 ++ putU8 c
          | none => putU8 1 ++ putU8 0))
  | .withdrawn assembly type place reason before lifeUsed lengthWear radiusWear lifeLimit lengthWearLimit
      radiusWearLimit =>
    (9, putU16 assembly ++ putU8 type ++ putPlace place ++ putU8 (reasonCode reason)
      ++ putU8 (asmStateCode before) ++ putU16 lifeUsed ++ putI32 lengthWear ++ putI32 radiusWear
      ++ putU16 lifeLimit ++ putI32 lengthWearLimit ++ putI32 radiusWearLimit)
  | .usageMismatch machine pocket reported atPocket minutes lengthWear radiusWear broken =>
    (10, putU8 machine ++ putU8 pocket ++ putU16 reported ++ putOption 2 putU16 atPocket ++ putU16 minutes
      ++ putI32 lengthWear ++ putI32 radiusWear ++ putBool broken)
  | .transitBlocked sender machine pocket status named atPocket stateAt reason =>
    (11, putU8 sender ++ putU8 machine ++ putU8 pocket ++ putU8 status ++ putOption 2 putU16 named
      ++ putOption 2 putU16 atPocket ++ putOption 1 (fun x => putU8 (asmStateCode x)) stateAt
      ++ putU8 (blockReasonCode reason))
  | .requestDropped machine pocket origin assembly =>
    (12, putU8 machine ++ putU8 pocket ++ putU8 (originCode origin) ++ putOption 2 putU16 assembly)

/-- The NOTICE frame to the crib server (R157, R187). -/
def noticeFrame (n : Notice) : Frame :=
  buildFrame .crib 1 .crib 0 0x06
    (putU8 (putNoticeBody n.body).1 ++ putU8 n.before ++ (putNoticeBody n.body).2)

/-! ## TOOL_DATA (6 + 5 × slot count bytes) -/

/-- A slot's flag byte: digit width, then saturated, blank and absent in bits 4 to 6. -/
def putSentSlot (t : SentSlot) : List Byte :=
  putU8 (t.width % 16 + 16 * t.saturated.toNat + 32 * t.blank.toNat + 64 * t.absent.toNat) ++ putI32 t.value

/-- A TOOL_DATA payload (section 9.3). -/
def putToolData (f : HandoffFrame) : List Byte :=
  match f.content with
  | .empty => putU8 f.pocket ++ putU8 0 ++ putU16 0 ++ putU8 0 ++ putU8 0
  | .noProfile => putU8 f.pocket ++ putU8 1 ++ putU16 0 ++ putU8 0 ++ putU8 0
  | .locked assembly bank slots =>
    putU8 f.pocket ++ putU8 2 ++ putU16 assembly ++ putU8 (bankCode bank) ++ putList putSentSlot slots
  | .served assembly bank slots =>
    putU8 f.pocket ++ putU8 3 ++ putU16 assembly ++ putU8 (bankCode bank) ++ putList putSentSlot slots

/-- The TOOL_DATA frame that the formatter builds: to H/m from source node 0 (R145). -/
def handoffFrame (f : HandoffFrame) : Frame :=
  buildFrame .hall f.machine .hall 0 0x08 (putToolData f)

end Sys2Proof.Machine
end

