-- ==== Sys2Proof/Machine/Ops.lean ====
section
/-! DEFINITION. The operations every chapter shares: rounding and limiting, the tables, counters, notices,
answers, the grants of the two arbiters, and how a frame event and a management request run. -/

namespace Sys2Proof.Machine

/-! ## Rounding and limiting (00_scope.md 5.1 to 5.3) -/

/-- Division rounding to the nearest integer, exact halves away from zero (5.2). -/
def roundHalfOut (x : Int) (d : Nat) : Int :=
  if 0 ≤ x then ((2 * x.natAbs + d) / (2 * d) : Nat) else -((2 * x.natAbs + d) / (2 * d) : Nat)

/-- A length kept in the carried range; the second part tells that it was limited (5.1). -/
def clampLength (x : Int) : Int × Bool :=
  if x > Config.lengthLimit then (Config.lengthLimit, true)
  else if x < -Config.lengthLimit then (-Config.lengthLimit, true)
  else (x, false)

/-- A value lies in the carried range (5.1). -/
def inLengthRange (x : Int) : Bool := -Config.lengthLimit ≤ x && x ≤ Config.lengthLimit

/-- An event counter after one more event: it stays at 65,535 (5.3). -/
def tally (n : Nat) : Nat := min (n + 1) Config.counterTop

/-! ## Tables -/

/-- The entry of a key. -/
def tableGet {α : Type} : Table α → Nat → Option α
  | [], _ => none
  | (k, a) :: rest, n => if k = n then some a else tableGet rest n

/-- The table with `n` holding `a`, keys still rising. -/
def tableSet {α : Type} : Table α → Nat → α → Table α
  | [], n, a => [(n, a)]
  | (k, b) :: rest, n, a =>
    if n < k then (n, a) :: (k, b) :: rest
    else if n = k then (n, a) :: rest
    else (k, b) :: tableSet rest n a

/-- The table without the entry of a key. -/
def tableErase {α : Type} (t : Table α) (n : Nat) : Table α := t.filter (fun e => e.1 ≠ n)

/-- The table without the entries that hold a value. -/
def tableEraseValue (t : Table Nat) (v : Nat) : Table Nat := t.filter (fun e => e.2 ≠ v)

/-! ## Records, types, heads, machines -/

/-- The record in a slot of the assembly table; none for an empty slot. -/
def recordAt (s : State) (n : Nat) : Option Assembly := tableGet s.assemblies n

/-- Stores a record in a slot. -/
def putAssembly (n : Nat) (r : Assembly) (s : State) : State :=
  { s with assemblies := tableSet s.assemblies n r }

/-- The type record of a number. -/
def typeAt (s : State) (t : Nat) : TypeRecord := (s.types[t]?).getD TypeRecord.reset

/-- Stores a type record. -/
def putType (t : Nat) (r : TypeRecord) (s : State) : State :=
  { s with types := s.types.setIfInBounds t r }

/-- A head. -/
def headAt (s : State) (h : Fin 4) : Head := s.heads[h]

/-- Stores a head. -/
def putHead (h : Fin 4) (x : Head) (s : State) : State := { s with heads := s.heads.set h x }

/-- A machine definition; none for a number outside 1 to 31. -/
def machineAt (s : State) (m : Nat) : Option MachineDef := if 1 ≤ m then s.machines[m - 1]? else none

/-- Stores a machine definition. -/
def putMachine (m : Nat) (x : MachineDef) (s : State) : State :=
  if 1 ≤ m then { s with machines := s.machines.setIfInBounds (m - 1) x } else s

/-- The machine is in the table and defined. -/
def machineDefined (s : State) (m : Nat) : Bool := (machineAt s m).any (·.defined)

/-- A place as a key of the issue map. -/
def placeKey (p : Place) : Nat := p.machine * 256 + p.pocket

/-- The assembly that the issue map holds at a place (R101). -/
def occupant (s : State) (p : Place) : Option Nat := tableGet s.issueMap (placeKey p)

/-- A tag's assembly and its record (R5). A bound tag always has a record; a tag without one reads as unbound
(log 19). -/
def lookupTag (s : State) (tag : Tag) : Option (Nat × Assembly) :=
  (tableGet s.tagMap tag.toNat).bind fun n => (recordAt s n).map fun r => (n, r)

/-- One more record of a type (R27). -/
def countIn (t : Nat) (s : State) : State := putType t { typeAt s t with inUse := (typeAt s t).inUse + 1 } s

/-- One record of a type fewer (R27). -/
def countOut (t : Nat) (s : State) : State := putType t { typeAt s t with inUse := (typeAt s t).inUse - 1 } s

/-- Binds a record's tag, when it has one (R5). -/
def bindTo (n : Nat) (tag : Option Tag) (s : State) : State :=
  match tag with
  | some t => { s with tagMap := tableSet s.tagMap t.toNat n }
  | none => s

/-- Removes a record's tag from the tag map, when it has one (R5). -/
def unbindFrom (tag : Option Tag) (s : State) : State :=
  match tag with
  | some t => { s with tagMap := tableErase s.tagMap t.toNat }
  | none => s

/-! ## Hold windows (section 1.6) -/

/-- A window covers a number (R22). -/
def covers (w : HoldWindow) (n : Nat) : Bool :=
  w.enabled && n < 1024 && ((w.base ≤ n && n < w.base + 2 ^ w.exponent) != w.complement)

/-- An assembly number is held (R22). -/
def isHeld (s : State) (n : Nat) : Bool := s.holds.toList.any fun w => covers w n

/-! ## Notices and answers -/

/-- Hands a notice to the Notice Queue (R186). -/
def notify (body : NoticeBody) (s : State) : State :=
  if s.notices.length < Config.noticePlaces then
    { s with notices := s.notices ++ [⟨s.discardedNotices, body⟩], discardedNotices := 0 }
  else { s with discardedNotices := min (s.discardedNotices + 1) Config.discardedTop }

/-- Places a frame in the answer FIFO (R177); the caller has found room. -/
def pushAnswer (a : Answer) (s : State) : State := { s with answers := s.answers ++ [a] }

/-- The answer FIFO has room (R99, R175). -/
def answerRoom (s : State) : Bool := s.answers.length < Config.answerPlaces

/-! ## Grants (R170, R171) -/

/-- The oldest frame of a crib source. -/
def cribFront (s : State) : CribSource → Option Frame
  | .transit => s.cribTransit.head?
  | .answer => s.answers.head?.map answerFrame
  | .notice => s.notices.head?.map noticeFrame

/-- The source that follows in cyclic order (R170). -/
def nextCribSource : CribSource → CribSource
  | .transit => .answer
  | .answer => .notice
  | .notice => .transit

/-- The first source at or after `c` in cyclic order that holds a frame, with that frame. -/
def searchCrib (s : State) (c : CribSource) : Option (CribSource × Frame) :=
  [c, nextCribSource c, nextCribSource (nextCribSource c)].findSome? fun x =>
    (cribFront s x).map fun f => (x, f)

/-- The crib arbiter grants when it is IDLE and a source holds a frame (R171). -/
def grantCrib (s : State) : State :=
  if s.cribEgress.sending.isSome then s
  else
    match searchCrib s s.cribEgress.pointer with
    | some (src, f) => { s with cribEgress := { sending := some (src, f), pointer := nextCribSource src } }
    | none => s

/-- The oldest frame of a hall source. -/
def hallFront (s : State) : HallSource → Option Frame
  | .transit => s.hallTransit.head?
  | .handoff => s.handoff.head?.map handoffFrame

/-- The source that follows in cyclic order (R170). -/
def nextHallSource : HallSource → HallSource
  | .transit => .handoff
  | .handoff => .transit

/-- The first source at or after `c` in cyclic order that holds a frame, with that frame. -/
def searchHall (s : State) (c : HallSource) : Option (HallSource × Frame) :=
  [c, nextHallSource c].findSome? fun x => (hallFront s x).map fun f => (x, f)

/-- The hall arbiter grants when it is IDLE and a source holds a frame (R171). -/
def grantHall (s : State) : State :=
  if s.hallEgress.sending.isSome then s
  else
    match searchHall s s.hallEgress.pointer with
    | some (src, f) => { s with hallEgress := { sending := some (src, f), pointer := nextHallSource src } }
    | none => s

/-- The grants that an event has brought about, on both ports (R171, log 5). -/
def grants (s : State) : State := grantHall (grantCrib s)

/-! ## Ports -/

/-- The state of a port. -/
def portAt (s : State) : Port → PortState
  | .crib => s.crib
  | .hall => s.hall

/-- Stores the state of a port. -/
def putPort (p : Port) (x : PortState) (s : State) : State :=
  match p with
  | .crib => { s with crib := x }
  | .hall => { s with hall := x }

/-- One more frame dropped at a reception stage (R174). -/
def countLine (p : Port) (c : LineCounter) (s : State) : State :=
  let x := portAt s p
  putPort p
    (match c with
     | .checkError => { x with checkError := tally x.checkError }
     | .malformed => { x with malformed := tally x.malformed }
     | .sourceRefused => { x with sourceRefused := tally x.sourceRefused }
     | .kindRefused => { x with kindRefused := tally x.kindRefused }) s

/-- The frame event of a port: while the RESET pin is asserted the frame is lost (R185, log 6); otherwise the
reception ends, the frame is handled by `effect`, and each arbiter then makes the grant that the event has
brought about (R171, log 5). -/
def onArrival (p : Port) (effect : State → State) (s : State) : State :=
  if s.resetPin then s
  else grants (effect (putPort p { portAt s p with receiving := [] } s))

/-! ## Management requests (R175, R176, R178, R181) -/

/-- What the owner of a request makes of it: the state, the reply's status and fields, and whether the request
changed stored content (R181). -/
structure Taken where
  state : State
  status : Status
  body : ReplyBody
  changed : Bool

/-- A reply that changes no stored content. -/
def replied (s : State) (status : Status) (body : ReplyBody) : Taken := ⟨s, status, body, false⟩

/-- An OK reply of a request that changed stored content. -/
def effected (s : State) (body : ReplyBody) : Taken := ⟨s, .ok, body, true⟩

/-- The protection check of R178. -/
def protectionPasses (s : State) : Bool :=
  match s.protection with
  | .open_ => true
  | .keyed => s.key
  | .locked => false

/-- One more effective table write (R181): the generation wraps from 65,535 to 0. -/
def advanceGeneration (s : State) : State := { s with generation := (s.generation + 1) % 65536 }

/-- Places a reply carrying the generation as it stands (R176). -/
def reply (code rt : Nat) (status : Status) (body : ReplyBody) (s : State) : State :=
  pushAnswer (.reply code rt status s.generation body) s

/-- An MGMT frame's arrival at the Management Unit: dropped at a full answer FIFO, else taken (R175). -/
def onRequest (take : State → State) (s : State) : State :=
  onArrival .crib (fun s =>
    if answerRoom s then take s else { s with mgmtDropped := tally s.mgmtDropped }) s

/-- A request that is not table-writing: its owner's rule alone. -/
def openRequest (code rt : Nat) (owner : State → Taken) (s : State) : State :=
  onRequest (fun s =>
    let r := owner s
    reply code rt r.status r.body r.state) s

/-- A table-writing request: the protection check (R178, R180), the owner's rule, the generation (R181). -/
def tableRequest (code rt : Nat) (owner : State → Taken) (s : State) : State :=
  onRequest (fun s =>
    if protectionPasses s then
      let r := owner s
      reply code rt r.status r.body (if r.changed then advanceGeneration r.state else r.state)
    else reply code rt .locked .none { s with protectionError := true }) s

/-- The bank of a code; none for a code other than A or B (section 9.3). -/
def bank? : Nat → Option Bank
  | 0 => some .bankA
  | 1 => some .bankB
  | _ => none

/-- A yes/no field of a request: none for a value other than 0 and 1 (section 9.3). -/
def yesNo? : Nat → Option Bool
  | 0 => some false
  | 1 => some true
  | _ => none

/-- A head number of a request; none above 3. -/
def headNumber? (n : Nat) : Option (Fin 4) := if h : n < 4 then some ⟨n, h⟩ else none

end Sys2Proof.Machine
end

