-- ==== Sys2Proof/Machine/Flags.lean ====
section
/-! DEFINITION. The judgements: completeness, verdict and outcome of an assembly (R9, R10), validity of a
calibration bank (R58) and of a profile (R124), and the STATE_FLAGS sum (R126). -/

namespace Sys2Proof.Machine

/-! ## Evaluation (section 1.4) -/

/-- A required axis is complete when its entry is present and FRESH (R9). -/
def complete (e : Option Entry) : Bool := e.any (·.fresh)

/-- The radius axis is required (section 2.1). -/
def needsRadius (t : TypeRecord) : Bool := t.axes = .lengthRadius

/-- Every required axis is complete (R9). -/
def allComplete (t : TypeRecord) (r : Assembly) : Bool :=
  complete r.length && (!needsRadius t || complete r.radius)

/-- An entry carries a clamp mark. -/
def isClamped (e : Option Entry) : Bool := e.any (·.clamped)

/-- The entry's deviation from a nominal value lies within its tolerance, limits included (R10). -/
def withinTolerance (e : Option Entry) (nominal lower upper : Int) : Bool :=
  e.all fun x => lower ≤ x.value - nominal && x.value - nominal ≤ upper

/-- The verdict (R10), or INCOMPLETE (R92). -/
def verdictOf (t : TypeRecord) (r : Assembly) : Verdict :=
  if allComplete t r = false then .incomplete
  else if isClamped r.length || (needsRadius t && isClamped r.radius) then .clamped
  else if withinTolerance r.length t.nominalL t.lowerL t.upperL = false then .failLength
  else if needsRadius t && !withinTolerance r.radius t.nominalR t.lowerR t.upperR then .failRadius
  else .pass

/-- The outcome of an evaluation that starts from the state `start` (R9, R10). -/
def outcomeOf (t : TypeRecord) (r : Assembly) (start : AsmState) : AsmState :=
  match verdictOf t r with
  | .pass => .preset
  | .failLength | .failRadius | .clamped => .rejected
  | .incomplete =>
    if r.length.isNone && r.radius.isNone then .built
    else if start = .remeasure ∧ complete r.length = false ∧ complete r.radius = false then .remeasure
    else .partly

/-- In the crib, and not held by a capture (section 1.3). -/
def inCrib : AsmState → Bool
  | .built | .partly | .preset | .rejected | .remeasure | .retired => true
  | .measuring | .issued | .inService | .withdrawn => false

/-- Out of the crib (section 1.3). -/
def outOfCrib : AsmState → Bool
  | .issued | .inService | .withdrawn => true
  | .built | .partly | .preset | .rejected | .remeasure | .retired | .measuring => false

/-- A contact may find the assembly in this state (R79 check 4). -/
def contactable : AsmState → Bool
  | .built | .partly | .preset | .rejected | .remeasure => true
  | .measuring | .issued | .inService | .withdrawn | .retired => false

/-- A tolerance write marks an assembly in this state (R32). -/
def markable : AsmState → Bool
  | .partly | .preset | .rejected | .measuring | .issued | .inService => true
  | .built | .remeasure | .withdrawn | .retired => false

/-- The record after its own evaluation (R11), the outcome computed from its own state; an assembly that is
MEASURING keeps its state here. The mark is cleared in every case (R8). -/
def evaluated (t : TypeRecord) (r : Assembly) : Assembly :=
  match r.state with
  | .built | .partly | .preset | .rejected | .remeasure =>
    { r with state := outcomeOf t r r.state, marked := false }
  | .issued | .inService | .withdrawn =>
    { r with recheck := r.recheck || outcomeOf t r r.state ≠ .preset, marked := false }
  | .measuring | .retired => { r with marked := false }

/-- An ARMED slot that names an assembly takes the outcome as its prior state (R11). -/
def reviewPrior (t : TypeRecord) (r : Assembly) (n : Nat) (x : Head) : Head :=
  match x.slot with
  | .armed c =>
    if c.assembly = n then { x with slot := .armed { c with prior := outcomeOf t r c.prior } } else x
  | .idle | .latched => x

/-- Evaluates the assembly `n` in the state it is in (R8 to R11), but for the settle of its own capture. -/
def evaluate (n : Nat) (s : State) : State :=
  match recordAt s n with
  | none => s
  | some r =>
    let t := typeAt s r.type
    let s := putAssembly n (evaluated t r) s
    if r.state = .measuring then { s with heads := s.heads.map (reviewPrior t r n) } else s

/-- A mark cleared by another event than a step (R37, R38). -/
def clearedOtherwise (s : State) : State :=
  { s with sweep := { s.sweep with marks := s.sweep.marks - 1, otherwise := s.sweep.otherwise + 1 } }

/-- Review on demand: a marked assembly is evaluated at once (R37). -/
def reviewOnDemand (n : Nat) (s : State) : State :=
  if (recordAt s n).any (·.marked) then clearedOtherwise (evaluate n s) else s

/-! ## Validity -/

/-- The q values rise strictly (R58). -/
def risingBreakpoints : List Breakpoint → Bool
  | p :: q :: rest => p.q < q.q && risingBreakpoints (q :: rest)
  | _ => true

/-- The invalidity reason of a calibration bank: the first condition of R58 that fails, or none. -/
def calReason (b : CalBank) : Option CalReason :=
  if b.breakpoints.length < 2 ∨ 16 < b.breakpoints.length then some .breakpointCount
  else if risingBreakpoints b.breakpoints = false then some .breakpointOrder
  else if b.scaleNum = 0 ∨ b.scaleDen = 0 then some .scaleZero
  else if b.refMin = 0 ∨ b.refMax < b.refMin then some .window
  else if b.depth = 2 ∨ b.depth = 4 ∨ b.depth = 8 then none
  else some .settleDepth

/-- A calibration bank is valid (R58). -/
def calValid (b : CalBank) : Bool := (calReason b).isNone

/-- The ten sources of R125. -/
inductive Source where
  | length | radius | lengthWear | radiusWear | nominalLength | nominalRadius | lifeLeft | assembly | type
  | stateFlags
deriving DecidableEq, Repr

/-- The source of a code; none for the six unknown codes (section 9.3). -/
def source? : Nat → Option Source
  | 0 => some .length
  | 1 => some .radius
  | 2 => some .lengthWear
  | 3 => some .radiusWear
  | 4 => some .nominalLength
  | 5 => some .nominalRadius
  | 6 => some .lifeLeft
  | 7 => some .assembly
  | 8 => some .type
  | 9 => some .stateFlags
  | _ => none

/-- A source is length-kind (R125). -/
def lengthKind : Source → Bool
  | .length | .radius | .lengthWear | .radiusWear | .nominalLength | .nominalRadius => true
  | .lifeLeft | .assembly | .type | .stateFlags => false

/-- The invalidity reason of the slot at a position: the first of SOURCE, WIDTH, UNIT (R124). -/
def slotReason (position : Nat) (t : OutputSlot) : Option ProfileReason :=
  match source? t.source with
  | none => some (.source position)
  | some src =>
    if t.width = 0 ∨ 9 < t.width then some (.width position)
    else if lengthKind src = true ∧ (t.unit = 0 ∨ 4 < t.unit) then some (.unit position)
    else none

/-- The first failing slot's reason, positions counted from `position` (R124). -/
def slotsReason : Nat → List OutputSlot → Option ProfileReason
  | _, [] => none
  | position, t :: rest => (slotReason position t).or (slotsReason (position + 1) rest)

/-- The invalidity reason of a profile bank (R124). -/
def profileReason (p : Profile) : Option ProfileReason :=
  if p.slots.length = 0 then some .slotCount else slotsReason 1 p.slots

/-- A profile bank is valid (R124). -/
def profileValid (p : Profile) : Bool := (profileReason p).isNone

/-! ## STATE_FLAGS -/

/-- The sum of the weights of R126 that hold for a record of type `t`. -/
def stateFlags (t : TypeRecord) (r : Assembly) : Nat :=
  1 * (r.length.any (fun e => !e.fresh)).toNat
    + 2 * (r.radius.any (fun e => !e.fresh)).toNat
    + 4 * (r.length.isNone || (needsRadius t && r.radius.isNone)).toNat
    + 8 * (isClamped r.length || isClamped r.radius).toNat
    + 16 * r.recheck.toNat + 32 * r.marked.toNat + 64 * (decide (r.state = .withdrawn)).toNat

end Sys2Proof.Machine
end

