-- ==== Sys2Proof/Machine/Calibration.lean ====
section
/-! DEFINITION. Chapter 4: the calibration banks, their switches, and the length computation; with the head
restore of R54. -/

namespace Sys2Proof.Machine

abbrev Result := Host.Outcome State Fault Refusal

/-! ## The length computation (section 4.4) -/

/-- The ratio stage (R71): the quotient truncates, and is limited to 1,048,575. -/
def ratioStage (g : GaugeFrame) : Nat × Bool :=
  let q := if g.gating = 0 then g.sensor * 65536 / g.reference else g.reference * 65536 / g.sensor
  if Config.ratioLimit < q then (Config.ratioLimit, true) else (q, false)

/-- The gap from the breakpoint `p` upward, `q` being at or above `p.q` (R72). -/
def gapFrom (q : Int) : Breakpoint → List Breakpoint → Int × Bool
  | p, [] => (p.g, p.q < q)
  | p, r :: rest =>
    if q < r.q then (p.g + roundHalfOut ((r.g - p.g) * (q - p.q)) (r.q - p.q).toNat, false)
    else gapFrom q r rest

/-- The gap stage (R72). A list without breakpoints belongs to no valid bank (log 19). -/
def gapStage (breakpoints : List Breakpoint) (q : Int) : Int × Bool :=
  match breakpoints with
  | [] => (0, false)
  | p :: rest => if q < p.q then (p.g, true) else gapFrom q p rest

/-- The position stage (R73). -/
def positionStage (b : CalBank) (scale : Int) : Int × Bool :=
  clampLength (roundHalfOut (scale * b.scaleNum) b.scaleDen + b.zero)

/-- The thermal stage (R75). -/
def thermalStage (b : CalBank) (raw : Int) (temperature : Nat) : Int × Bool :=
  clampLength (raw - roundHalfOut (raw * b.alpha * (temperature - Config.referenceCode)) 4000000)

/-- The five stages on one frame (R70 to R76): the compensated length and the reading's clamp mark. -/
def compensated (b : CalBank) (g : GaugeFrame) : Sample :=
  let q := ratioStage g
  let gap := gapStage b.breakpoints q.1
  let p := positionStage b g.scale
  let raw := clampLength (p.1 + gap.1)
  let l := thermalStage b raw.1 g.temperature
  ⟨l.1, q.2 || gap.2 || p.2 || raw.2 || l.2⟩

/-- The counts of a frame are discarded (R48): overflow mark, or a zero divisor of the ratio. -/
def countsDiscarded (g : GaugeFrame) : Bool :=
  g.overflow || (if g.gating = 0 then g.reference = 0 else g.sensor = 0)

/-- The reading of a CONTACT or SAMPLE (R48, R49): none for outcome DISCARDED. -/
def readingOf (b : CalBank) (g : GaugeFrame) : Option Sample :=
  if countsDiscarded g then none else some (compensated b g)

/-! ## Banks -/

/-- The bank that is not this one. -/
def otherBank : Bank → Bank
  | .bankA => .bankB
  | .bankB => .bankA

/-- A head's bank content. -/
def calBankOf (x : Head) : Bank → CalBank
  | .bankA => x.bankA
  | .bankB => x.bankB

/-- A head with new content in a bank. -/
def withCalBank (x : Head) (b : Bank) (content : CalBank) : Head :=
  match b with
  | .bankA => { x with bankA := content }
  | .bankB => { x with bankB := content }

/-- A head's active bank. -/
def activeCal (x : Head) : CalBank := calBankOf x x.active

/-- The stored form of a WRITE_CAL body (R60 check 2); none when a field lies outside its storage range or the
list does not hold the stated count. -/
def storedCal? (b : CalBody) : Option CalBank :=
  if b.count ≤ 16 ∧ b.breakpoints.length = b.count
      ∧ b.breakpoints.all (fun p => 0 ≤ p.q && p.q ≤ 1048575 && -20000 ≤ p.g && p.g ≤ 20000) = true
      ∧ inLengthRange b.zero = true ∧ b.depth ≤ 8 then
    some { breakpoints := b.breakpoints, scaleNum := b.scaleNum, scaleDen := b.scaleDen, zero := b.zero
           alpha := min b.alpha 30, refMin := b.refMin, refMax := b.refMax, depth := b.depth }
  else none

/-- A head whose active bank has become valid leaves UNCALIBRATED for READY; the other states stay (R45). -/
def calibratedState : HeadState → HeadState
  | .uncalibrated => .ready
  | .ready => .ready
  | .fault r => .fault r

/-- A head with `b` made active and no switch pending (R63, R65). -/
def switchedTo (x : Head) (b : Bank) : Head :=
  { x with active := b, pendingCal := none, status := calibratedState x.status }

/-- The pending switch of a head completes at the end of the capture of `assembly` (R65). -/
def completePendingCal (h : Fin 4) (assembly : Nat) (s : State) : State :=
  let x := headAt s h
  match x.pendingCal with
  | none => s
  | some b =>
    notify (.calSwitchDone h b x.active (some assembly) (switchedTo x b).status) (putHead h (switchedTo x b) s)

/-! ## Requests -/

/-- READ_CAL's owner (R59). -/
def ownReadCal (head bank : Nat) (s : State) : Taken :=
  match headNumber? head, bank? bank with
  | some h, some b =>
    let x := headAt s h
    replied s .ok (.calBank head b (calBankOf x b) (calReason (calBankOf x b)) (x.active = b) x.pendingCal x.status)
  | _, _ => replied s .badIndex .none

/-- The WRITE_CAL effect on a head (R61). -/
def withWrittenCal (x : Head) (b : Bank) (content : CalBank) : Head :=
  let x' := withCalBank x b content
  if x.active = b ∧ calValid content = true then { x' with status := calibratedState x.status } else x'

/-- WRITE_CAL's owner (R60, R61). -/
def ownWriteCal (head bank : Nat) (body : CalBody) (s : State) : Taken :=
  match headNumber? head, bank? bank with
  | some h, some b =>
    let x := headAt s h
    match storedCal? body with
    | none => replied s .invalidTable .none
    | some content =>
      if x.active = b ∧ calValid (calBankOf x b) = true then replied s .activeBank .none
      else if x.active ≠ b ∧ x.pendingCal = some b then replied s .busy .none
      else if content = calBankOf x b then replied s .noChange .none
      else
        let x' := withWrittenCal x b content
        effected (putHead h x' s) (.calWritten head b (calReason content) (x.active = b) x'.status)
  | _, _ => replied s .badIndex .none

/-- SWITCH_CAL's owner (R62 to R64). -/
def ownSwitchCal (head bank : Nat) (s : State) : Taken :=
  match headNumber? head, bank? bank with
  | some h, some b =>
    let x := headAt s h
    if x.active = b then
      replied (putHead h { x with pendingCal := none } s) .redundant (.redundant x.pendingCal)
    else
      match calReason (calBankOf x b) with
      | some reason => replied s .invalidTable (.calInvalid reason)
      | none =>
        if x.pendingCal = some b then replied s .ok .none
        else
          match x.slot with
          | .armed _ => effected (putHead h { x with pendingCal := some b } s) (.calPending b x.active)
          | .idle | .latched =>
            let x' := switchedTo x b
            effected (notify (.calSwitchDone h b x.active none x'.status) (putHead h x' s))
              (.calSwitched b x'.status)
  | _, _ => replied s .badIndex .none

/-- CANCEL_CAL_SWITCH's owner (R66). -/
def ownCancelCal (head : Nat) (s : State) : Taken :=
  match headNumber? head with
  | some h =>
    let x := headAt s h
    match x.pendingCal with
    | none => replied s .state .none
    | some b =>
      effected (notify (.calSwitchCancelled h b) (putHead h { x with pendingCal := none } s)) (.cancelled b)
  | none => replied s .badIndex .none

/-- HEAD_RESTORE's owner (R54). -/
def ownHeadRestore (head : Nat) (s : State) : Taken :=
  match headNumber? head with
  | some h =>
    let x := headAt s h
    match x.status with
    | .fault _ => effected (putHead h { x with status := .ready } s) (.headRestored head .ready)
    | .uncalibrated | .ready => replied s .state .none
  | none => replied s .badIndex .none

/-- READ_CAL (R59). -/
def execReadCal (rt head bank : Nat) (s : State) : Result :=
  .next (openRequest 0x21 rt (ownReadCal head bank) s)

/-- WRITE_CAL (R60, R61). -/
def execWriteCal (rt head bank : Nat) (body : CalBody) (s : State) : Result :=
  .next (tableRequest 0x20 rt (ownWriteCal head bank body) s)

/-- SWITCH_CAL (R62 to R64). -/
def execSwitchCal (rt head bank : Nat) (s : State) : Result :=
  .next (tableRequest 0x22 rt (ownSwitchCal head bank) s)

/-- CANCEL_CAL_SWITCH (R66). -/
def execCancelCalSwitch (rt head : Nat) (s : State) : Result :=
  .next (tableRequest 0x23 rt (ownCancelCal head) s)

/-- HEAD_RESTORE (R54). -/
def execHeadRestore (rt head : Nat) (s : State) : Result :=
  .next (tableRequest 0x24 rt (ownHeadRestore head) s)

end Sys2Proof.Machine
end

