-- ==== Sys2Proof/Machine/Assemblies.lean ====
section
/-! DEFINITION. Chapter 1: the management of assembly records and the hold windows. -/

namespace Sys2Proof.Machine

/-! ## Checks common to CREATE, RESTORE, EDIT and DELETE (R12) -/

/-- A refusal of a request that names an assembly (R12): nothing changes, and the reply carries the number. -/
def refusedAssembly (n : Nat) (status : Status) (s : State) : Taken := replied s status (.assembly n)

/-- Checks 1 and 2 of R12, then the request's own rule. -/
def onAssembly (n : Nat) (owner : State → Taken) (s : State) : Taken :=
  if 1023 < n then refusedAssembly n .badIndex s
  else if isHeld s n then refusedAssembly n .protected_ { s with protectionError := true }
  else owner s

/-- The type is 0 to 127 and defined (R13 check 4). -/
def typeUsable (s : State) (t : Nat) : Bool := t < 128 && (typeAt s t).defined

/-- The tag is bound to another assembly than `n` (R5). -/
def boundElsewhere (s : State) (n : Nat) (tag : Tag) : Bool :=
  (tableGet s.tagMap tag.toNat).any fun m => m ≠ n

/-! ## CREATE (R13) -/

/-- The record that CREATE places (R13). -/
def createdRecord (t : Nat) (tag : Option Tag) : Assembly :=
  { type := t, tag := tag, state := .built, length := none, radius := none, lifeUsed := 0, lengthWear := 0
    radiusWear := 0, location := none, marked := false, recheck := false, reason := none }

/-- CREATE's owner (R13). -/
def ownCreate (n t : Nat) (tag : Option Tag) : State → Taken :=
  onAssembly n fun s =>
    if (recordAt s n).isSome then refusedAssembly n .state s
    else if typeUsable s t = false then refusedAssembly n .badIndex s
    else if tag.any (fun x => (tableGet s.tagMap x.toNat).isSome) then refusedAssembly n .tagInUse s
    else effected (countIn t (bindTo n tag (putAssembly n (createdRecord t tag) s))) (.assemblyState n .built)

/-- CREATE (R13). -/
def execCreate (rt n t : Nat) (tag : Option Tag) (s : State) : Result :=
  .next (tableRequest 0x40 rt (ownCreate n t tag) s)

/-! ## RESTORE (R14, R15) -/

/-- The assembly state of a code (section 9.3). -/
def asmState? : Nat → Option AsmState
  | 0 => some .built
  | 1 => some .measuring
  | 2 => some .partly
  | 3 => some .preset
  | 4 => some .rejected
  | 5 => some .remeasure
  | 6 => some .issued
  | 7 => some .inService
  | 8 => some .withdrawn
  | 9 => some .retired
  | _ => none

/-- A target state of RESTORE (R14 check 4). -/
def restoreTarget? (code : Nat) : Option AsmState :=
  (asmState? code).filter fun x => x ≠ .measuring ∧ x ≠ .partly

/-- The withdrawal reason of a code (section 9.3). -/
def reason? : Nat → Option Reason
  | 1 => some .break_
  | 2 => some .life
  | 3 => some .wear
  | _ => none

/-- Freshness of a code (section 9.3): true for FRESH. -/
def freshness? : Nat → Option Bool
  | 0 => some true
  | 1 => some false
  | _ => none

/-- An axis entry of the body (R14 check 4). -/
def entry? (b : EntryBody) : Option Entry := do
  let fresh ← freshness? b.freshness
  let clamped ← yesNo? b.clamp
  let bank ← bank? b.bank
  if inLengthRange b.value && b.head < 4 then some ⟨b.value, fresh, clamped, b.head, bank⟩ else none

/-- An optional field of the body, well formed when it is absent or its reading is. -/
def optional? {α β : Type} (read : α → Option β) : Option α → Option (Option β)
  | none => some none
  | some a => (read a).map some

/-- An entry stored STALE for a REMEASURE target (R15). -/
def staledFor (target : AsmState) (e : Option Entry) : Option Entry :=
  if target = .remeasure then e.map fun x => { x with fresh := false } else e

/-- The presences that the target state asks for (R14 check 4). -/
def targetPresences (target : AsmState) (length radius : Option Entry) (reason : Option Reason)
    (location : Option Place) : Bool :=
  (target ≠ .built || (length.isNone && radius.isNone))
    && (target ≠ .withdrawn || reason.isSome)
    && (target = .withdrawn || target = .retired || reason.isNone)
    && location.isSome = outOfCrib target

/-- The record that a well-formed RESTORE body describes, before any evaluation (R14 check 4, R15). -/
def describedRecord? (b : RestoreBody) : Option Assembly := do
  let target ← restoreTarget? b.target
  let length ← optional? entry? b.length
  let radius ← optional? entry? b.radius
  let recheck ← yesNo? b.recheck
  let reason ← optional? reason? b.reason
  if targetPresences target length radius reason b.location then
    some { type := b.type, tag := b.tag, state := target, length := staledFor target length
           radius := staledFor target radius, lifeUsed := b.lifeUsed, lengthWear := b.lengthWear
           radiusWear := b.radiusWear, location := b.location, marked := false, recheck := recheck
           reason := reason }
  else none

/-- The record that RESTORE stores: evaluated for the targets that R15 names. -/
def restoredRecord (t : TypeRecord) (r : Assembly) : Assembly :=
  match r.state with
  | .preset | .rejected => { r with state := outcomeOf t r .rejected }
  | .issued | .inService => evaluated t r
  | .built | .measuring | .partly | .remeasure | .withdrawn | .retired => r

/-- Check 7 of R14: the refusal of an issue location, or none. -/
def locationRefusal (s : State) (location : Option Place) : Option Status :=
  match location with
  | none => none
  | some p =>
    match machineAt s p.machine with
    | none => some .badIndex
    | some m =>
      if m.defined = false ∨ p.pocket = 0 ∨ m.magazine < p.pocket then some .badIndex
      else if (occupant s p).isSome then some .state
      else none

/-- The old record of a slot gives up its tag, its place in the in-use count and its mark (R15, R38). -/
def dropRecord (old : Option Assembly) (s : State) : State :=
  match old with
  | none => s
  | some o =>
    let s := countOut o.type (unbindFrom o.tag s)
    if o.marked then clearedOtherwise s else s

/-- Enters a restored assembly's place in the issue map (R113). -/
def enterPlace (n : Nat) (location : Option Place) (s : State) : State :=
  match location with
  | none => s
  | some p => { s with issueMap := tableSet s.issueMap (placeKey p) n }

/-- RESTORE's owner (R14, R15). -/
def ownRestore (n : Nat) (b : RestoreBody) : State → Taken :=
  onAssembly n fun s =>
    let old := recordAt s n
    if old.any (fun r => !inCrib r.state) then refusedAssembly n .state s
    else
      match describedRecord? b with
      | none => refusedAssembly n .invalidTable s
      | some r =>
        if typeUsable s b.type = false then refusedAssembly n .badIndex s
        else if b.tag.any (boundElsewhere s n) then refusedAssembly n .tagInUse s
        else
          match locationRefusal s b.location with
          | some status => refusedAssembly n status s
          | none =>
            let new := restoredRecord (typeAt s b.type) r
            if old = some new then replied s .noChange (.assemblyState n new.state)
            else
              effected
                (enterPlace n new.location (countIn new.type (bindTo n new.tag
                  (putAssembly n new (dropRecord old s)))))
                (.assemblyState n new.state)

/-- RESTORE (R14). -/
def execRestore (rt n : Nat) (b : RestoreBody) (s : State) : Result :=
  .next (tableRequest 0x41 rt (ownRestore n b) s)

/-! ## EDIT (R16 to R18) -/

/-- Checks 1 to 4 of R16, the review on demand, and then the action on the record as the review left it. -/
def onEdit (n : Nat) (check : State → Assembly → Option Status) (action : Assembly → State → Taken) :
    State → Taken :=
  onAssembly n fun s =>
    match recordAt s n with
    | none => refusedAssembly n .state s
    | some r =>
      if inCrib r.state = false then refusedAssembly n .state s
      else
        match check s r with
        | some status => refusedAssembly n status s
        | none =>
          let s' := reviewOnDemand n s
          action ((recordAt s' n).getD r) s'

/-- CHANGE_TYPE after its checks (R16). -/
def changeTypeAction (n t : Nat) (r : Assembly) (s : State) : Taken :=
  if r.type = t then replied s .noChange (.assemblyState n r.state)
  else
    let r' := evaluated (typeAt s t) { r with type := t }
    effected (putAssembly n r' (countIn t (countOut r.type s))) (.assemblyState n r'.state)

/-- CHANGE_TYPE's owner (R16). -/
def ownChangeType (n t : Nat) : State → Taken :=
  onEdit n (fun s _ => if typeUsable s t then none else some .badIndex) (changeTypeAction n t)

/-- CHANGE_TYPE (R16). -/
def execChangeType (rt n t : Nat) (s : State) : Result :=
  .next (tableRequest 0x42 rt (ownChangeType n t) s)

/-- BIND_TAG's refusals (R17). -/
def bindTagCheck (n : Nat) (tag : Tag) (s : State) (r : Assembly) : Option Status :=
  if boundElsewhere s n tag then some .tagInUse
  else if r.tag.any (fun x => x ≠ tag) then some .state
  else none

/-- BIND_TAG after its checks (R17). -/
def bindTagAction (n : Nat) (tag : Tag) (r : Assembly) (s : State) : Taken :=
  if r.tag = some tag then replied s .noChange (.assemblyState n r.state)
  else effected (bindTo n (some tag) (putAssembly n { r with tag := some tag } s)) (.assemblyState n r.state)

/-- BIND_TAG (R17). -/
def execBindTag (rt n : Nat) (tag : Tag) (s : State) : Result :=
  .next (tableRequest 0x42 rt (onEdit n (bindTagCheck n tag) (bindTagAction n tag)) s)

/-- UNBIND_TAG after its checks (R17). -/
def unbindTagAction (n : Nat) (r : Assembly) (s : State) : Taken :=
  if r.tag = none then replied s .noChange (.assemblyState n r.state)
  else effected (unbindFrom r.tag (putAssembly n { r with tag := none } s)) (.assemblyState n r.state)

/-- UNBIND_TAG (R17). -/
def execUnbindTag (rt n : Nat) (s : State) : Result :=
  .next (tableRequest 0x42 rt (onEdit n (fun _ _ => none) (unbindTagAction n)) s)

/-- A record rebuilt (R18). -/
def rebuiltRecord (r : Assembly) : Assembly :=
  { r with state := .built, length := none, radius := none, reason := none, lifeUsed := 0, lengthWear := 0
           radiusWear := 0, recheck := false }

/-- REBUILD after its checks (R18). -/
def rebuildAction (n : Nat) (r : Assembly) (s : State) : Taken :=
  effected (putAssembly n (rebuiltRecord r) s) (.assemblyState n .built)

/-- REBUILD (R18). -/
def execRebuild (rt n : Nat) (s : State) : Result :=
  .next (tableRequest 0x42 rt
    (onEdit n (fun _ r => if r.state = .retired then none else some .state) (rebuildAction n)) s)

/-! ## DELETE (R19) -/

/-- DELETE's owner (R19, R38). -/
def ownDelete (n : Nat) : State → Taken :=
  onAssembly n fun s =>
    match recordAt s n with
    | none => refusedAssembly n .state s
    | some r =>
      if inCrib r.state = false then refusedAssembly n .state s
      else
        let s' := dropRecord (some r) s
        effected { s' with assemblies := tableErase s'.assemblies n } (.assembly n)

/-- DELETE (R19). -/
def execDelete (rt n : Nat) (s : State) : Result :=
  .next (tableRequest 0x43 rt (ownDelete n) s)

/-! ## READ_ASSEMBLIES (R20) -/

/-- Examines at most `fuel` slots from `at_` upward, wrapping after 1023, until `want` records are copied: the
number of slots examined and the copied records in order (R20). -/
def scanRecords (s : State) : (fuel at_ want : Nat) → Nat × List CopiedRecord
  | 0, _, _ => (0, [])
  | _ + 1, _, 0 => (0, [])
  | fuel + 1, at_, want + 1 =>
    match recordAt s at_ with
    | some r =>
      let x := scanRecords s fuel ((at_ + 1) % 1024) want
      (x.1 + 1, ⟨at_, r, isHeld s at_⟩ :: x.2)
    | none =>
      let x := scanRecords s fuel ((at_ + 1) % 1024) (want + 1)
      (x.1 + 1, x.2)

/-- READ_ASSEMBLIES's owner (R20). -/
def ownReadAssemblies (start count : Nat) (s : State) : Taken :=
  if 1023 < start ∨ count = 0 ∨ 4 < count then replied s .badIndex .none
  else
    let x := scanRecords s 1024 start count
    replied s .ok (.assemblies x.1 ((start + x.1) % 1024) s.holds.toList x.2)

/-- READ_ASSEMBLIES (R20). -/
def execReadAssemblies (rt start count : Nat) (s : State) : Result :=
  .next (openRequest 0x44 rt (ownReadAssemblies start count) s)

/-! ## WRITE_HOLDS (R21) -/

/-- The window that a WRITE_HOLDS body gives, its base aligned down to a multiple of the size; none when a
field holds no listed value (R21). -/
def storedWindow? (b : HoldBody) : Option HoldWindow :=
  match yesNo? b.enabled, yesNo? b.complement with
  | some enabled, some complement =>
    if b.base ≤ 1023 ∧ b.exponent ≤ 10 then
      some ⟨enabled, b.base - b.base % 2 ^ b.exponent, b.exponent, complement⟩
    else none
  | _, _ => none

/-- WRITE_HOLDS's owner (R21). -/
def ownWriteHolds (w : Nat) (b : HoldBody) (s : State) : Taken :=
  match s.holds[w]? with
  | none => replied s .badIndex .none
  | some old =>
    match storedWindow? b with
    | none => replied s .invalidTable .none
    | some new =>
      if new = old then replied s .noChange (.windows s.holds.toList)
      else
        let s' := { s with holds := s.holds.setIfInBounds w new }
        effected s' (.windows s'.holds.toList)

/-- WRITE_HOLDS (R21). -/
def execWriteHolds (rt w : Nat) (b : HoldBody) (s : State) : Result :=
  .next (tableRequest 0x50 rt (ownWriteHolds w b) s)

end Sys2Proof.Machine
end

