-- ==== Sys2Proof/Machine/Capture.lean ====
section
/-! DEFINITION. Chapters 3 and 5: the gauge front end, the reference monitor, and the capture from arming to
settle or abort. -/

namespace Sys2Proof.Machine

/-! ## Ends of a capture -/

/-- The history keeps the last `k` accepted readings (R82). -/
def lastEntries (k : Nat) (history : List Sample) : List Sample := history.drop (history.length - k)

/-- The largest compensated length minus the smallest (R83). -/
def spanOf (history : List Sample) : Int :=
  match history with
  | [] => 0
  | x :: rest =>
    rest.foldl (fun m y => max m y.value) x.value - rest.foldl (fun m y => min m y.value) x.value

/-- The settled mean (R84). -/
def meanOf (history : List Sample) : Int :=
  roundHalfOut ((history.map (·.value)).sum) history.length

/-- The result of a settled capture from its mean: a RADIUS halves the diameter (R84). -/
def resultOf (axis : Axis) (mean : Int) : Int :=
  match axis with
  | .length => mean
  | .radius => roundHalfOut mean 2

/-- A record with an axis entry written whole (R85). -/
def withEntry (axis : Axis) (e : Entry) (r : Assembly) : Assembly :=
  match axis with
  | .length => { r with length := some e }
  | .radius => { r with radius := some e }

/-- Sets a head's slot. -/
def putHeadSlot (h : Fin 4) (slot : Slot) (s : State) : State := putHead h { headAt s h with slot := slot } s

/-- The state of a record becomes `state`, nothing else of it changing. -/
def setState (n : Nat) (state : AsmState) (s : State) : State :=
  match recordAt s n with
  | none => s
  | some r => putAssembly n { r with state := state } s

/-- The abort of the armed capture `c` of a head (R87): the assembly takes its prior state, the slot goes to
`slot`, and CAPTURE_ABORTED is handed on. -/
def abortCapture (h : Fin 4) (c : Capture) (reason : AbortReason) (slot : Slot) (s : State) : State :=
  notify (.captureAborted h c.assembly c.axis reason c.prior c.frames c.history.length)
    (putHeadSlot h slot (setState c.assembly c.prior s))

/-- The record that a settle of capture `c` leaves (R84, R85): the entry, the outcome, no mark. -/
def settledRecord (h : Fin 4) (c : Capture) (t : TypeRecord) (r : Assembly) : Assembly :=
  let r' := withEntry c.axis
    ⟨resultOf c.axis (meanOf c.history), true, c.history.any (·.clamped), h, c.bank⟩ r
  { r' with state := outcomeOf t r' r'.state, marked := false }

/-- A settle of capture `c` (R85): the record, the sweep's counts when a mark went with it (R37), the slot,
CAPTURE_DONE, and then a pending calibration switch. -/
def settleCapture (h : Fin 4) (c : Capture) (s : State) : State :=
  match recordAt s c.assembly with
  | none => s
  | some r =>
    let t := typeAt s r.type
    let r' := settledRecord h c t r
    let s := putAssembly c.assembly r' s
    let s := if r.marked then clearedOtherwise s else s
    let s := putHeadSlot h .latched s
    let s := notify (.captureDone h c.assembly c.axis (resultOf c.axis (meanOf c.history)) (meanOf c.history)
      (c.history.any (·.clamped)) c.bank c.frames (verdictOf t r') r'.state) s
    completePendingCal h c.assembly s

/-! ## Readings -/

/-- The capture after one reading (R82): the frame count, and the history when the reading is accepted. -/
def afterReading (depth : Nat) (reading : Option Sample) (c : Capture) : Capture :=
  match reading with
  | some x => { c with frames := c.frames + 1, history := lastEntries depth (c.history ++ [x]) }
  | none => { c with frames := c.frames + 1 }

/-- The settle test (R83), on the capture with the reading already in it. -/
def settles (depth : Nat) (band : Int) (reading : Option Sample) (c : Capture) : Bool :=
  reading.isSome && c.history.length = depth && spanOf c.history ≤ band

/-- What a reading makes of a capture (R82, R83, R86). -/
inductive ReadingEffect where
  | goesOn (c : Capture)
  | settled (c : Capture)
  | timedOut (c : Capture)
deriving DecidableEq, Repr

/-- A reading on the armed capture `c` of a head. -/
def readingEffect (s : State) (h : Fin 4) (c : Capture) (reading : Option Sample) : ReadingEffect :=
  let depth := (calBankOf (headAt s h) c.bank).depth
  let band := (recordAt s c.assembly).elim 0 fun r => (typeAt s r.type).band
  let c' := afterReading depth reading c
  if settles depth band reading c' then .settled c'
  else if Config.captureFrames ≤ c'.frames then .timedOut c'
  else .goesOn c'

/-- Applies the effect of a reading: a settle (R85), a timeout (R86), or the capture going on (R82). -/
def applyReading (h : Fin 4) (e : ReadingEffect) (s : State) : State :=
  match e with
  | .goesOn c => putHeadSlot h (.armed c) s
  | .settled c => settleCapture h c s
  | .timedOut c => completePendingCal h c.assembly (abortCapture h c .settleTimeout .latched s)

/-! ## Contacts -/

/-- The head whose ARMED slot names an assembly (R80). -/
def holdingHead (s : State) (n : Nat) : Option Nat :=
  ([0, 1, 2, 3] : List (Fin 4)).findSome? fun h =>
    match (headAt s h).slot with
    | .armed c => if c.assembly = n then some h.val else none
    | .idle | .latched => none

/-- The axis of a code; none for an unknown code (section 9.3). -/
def axis? : Nat → Option Axis
  | 0 => some .length
  | 1 => some .radius
  | _ => none

/-- The axis is required by the type (R79 check 5). -/
def axisRequired (t : TypeRecord) : Axis → Bool
  | .length => true
  | .radius => needsRadius t

/-- Checks 2 to 5 of R79: the refusal notice, or the assembly and record that the contact arms. -/
def contactChecks (s : State) (h : Fin 4) (axis : Axis) (tag : Tag) : NoticeBody ⊕ (Nat × Assembly) :=
  match lookupTag s tag with
  | none => .inl (.contactRefused h .unknownTag tag (some axis) none none none)
  | some (n, r) =>
    if isHeld s n then .inl (.contactRefused h .held tag (some axis) (some n) none none)
    else if r.state = .measuring then
      .inl (.contactRefused h .busyElsewhere tag (some axis) (some n) (some r.state) (holdingHead s n))
    else if contactable r.state = false then
      .inl (.contactRefused h .state tag (some axis) (some n) (some r.state) none)
    else if axisRequired (typeAt s r.type) axis = false then
      .inl (.contactRefused h .axisNotRequired tag (some axis) (some n) none none)
    else .inr (n, r)

/-- A contact reading that finds the slot IDLE (R79 to R82): refused to LATCHED, or armed with the reading as
its first. -/
def takeContact (h : Fin 4) (axis : Axis) (tag : Tag) (reading : Option Sample) (s : State) : State :=
  match contactChecks s h axis tag with
  | .inl refusal => notify refusal (putHeadSlot h .latched s)
  | .inr (n, r) =>
    let c : Capture := ⟨n, axis, r.state, (headAt s h).active, [], 0⟩
    let s := putHeadSlot h (.armed c) (setState n .measuring s)
    applyReading h (readingEffect s h c reading) s

/-! ## The front end (section 3.2) -/

/-- One more frame in *gauge discarded* of a head (R56). -/
def discardGauge (h : Fin 4) (s : State) : State :=
  let x := headAt s h
  putHead h { x with gaugeDiscarded := tally x.gaugeDiscarded } s

/-- The reference monitor (R50). -/
def monitorPasses (b : CalBank) (g : GaugeFrame) : Bool :=
  0 < g.reference && b.refMin ≤ g.reference && g.reference ≤ b.refMax

/-- A frame that fails the monitor (R51, R52): the armed capture aborted, a pending switch cancelled, the head
in FAULT with its record, the slot IDLE, HEAD_FAULT handed on. -/
def referenceFault (h : Fin 4) (k : SampleKind) (g : GaugeFrame) (s : State) : State :=
  let x := headAt s h
  let aborted : Option Capture :=
    match x.slot with
    | .armed c => some c
    | .idle | .latched => none
  let s :=
    match aborted with
    | some c => abortCapture h c .referenceFault .idle s
    | none => s
  let s := putHead h
    { headAt s h with pendingCal := none, status := .fault ⟨g.reference, k, x.active⟩, slot := .idle } s
  notify (.headFault h g.reference k x.active (activeCal x).refMin (activeCal x).refMax
    (aborted.map (·.assembly)) x.pendingCal) s

/-- The gating kind is one of the two known (R42). -/
def gatingKnown (g : GaugeFrame) : Bool := g.gating ≤ 1

/-- A CONTACT while the slot is ARMED first ends the capture (R88), and a pending switch then completes
(R65). -/
def recontact (h : Fin 4) (s : State) : State :=
  match (headAt s h).slot with
  | .armed c => completePendingCal h c.assembly (abortCapture h c .recontact .idle s)
  | .idle | .latched => s

/-- A contact frame of a READY head, after any recontact (R50, R42, R48, R78). -/
def readyContact (h : Fin 4) (g : GaugeFrame) (tag : Tag) (s : State) : State :=
  let x := headAt s h
  if monitorPasses (activeCal x) g = false then referenceFault h .contact g s
  else
    match axis? g.axis, gatingKnown g with
    | some axis, true =>
      match x.slot with
      | .idle => takeContact h axis tag (readingOf (activeCal x) g) s
      | .latched => s
      | .armed _ => s
    | _, _ => discardGauge h s

/-- A CONTACT frame at its head (R44, R47). -/
def gaugeContact (h : Fin 4) (g : GaugeFrame) (tag : Tag) (s : State) : State :=
  match (headAt s h).status with
  | .uncalibrated => notify (.contactRefused h .headNotReady tag none none none none) s
  | .fault _ => discardGauge h s
  | .ready => readyContact h g tag (recontact h s)

/-- A SAMPLE frame at its head (R44, R78). -/
def gaugeSample (h : Fin 4) (g : GaugeFrame) (s : State) : State :=
  let x := headAt s h
  match x.status with
  | .uncalibrated => discardGauge h s
  | .fault _ => discardGauge h s
  | .ready =>
    if monitorPasses (activeCal x) g = false then referenceFault h .sample g s
    else if gatingKnown g = false then discardGauge h s
    else
      match x.slot with
      | .armed c => applyReading h (readingEffect s h c (readingOf (activeCal x) g)) s
      | .idle | .latched => s

/-- A RELEASE frame at its head (R44, R78, R87). -/
def gaugeRelease (h : Fin 4) (g : GaugeFrame) (s : State) : State :=
  let x := headAt s h
  match x.status with
  | .uncalibrated => discardGauge h s
  | .fault _ => discardGauge h s
  | .ready =>
    if monitorPasses (activeCal x) g = false then referenceFault h .release g s
    else
      match x.slot with
      | .idle => s
      | .latched => putHeadSlot h .idle s
      | .armed c => completePendingCal h c.assembly (abortCapture h c .releasedEarly .idle s)

/-- A gauge frame of any sample kind; the tag is a CONTACT's. -/
def gaugeFrame (h : Fin 4) (k : SampleKind) (g : GaugeFrame) (tag : Tag) (s : State) : State :=
  match k with
  | .contact => gaugeContact h g tag s
  | .sample => gaugeSample h g s
  | .release => gaugeRelease h g s

/-! ## The rows -/

/-- CONTACT (R44). -/
def execContact (h : Fin 4) (g : GaugeFrame) (tag : Tag) (s : State) : Result :=
  .next (onArrival .crib (gaugeContact h g tag) s)

/-- SAMPLE (R82). -/
def execSample (h : Fin 4) (g : GaugeFrame) (s : State) : Result :=
  .next (onArrival .crib (gaugeSample h g) s)

/-- RELEASE (R87). -/
def execRelease (h : Fin 4) (g : GaugeFrame) (s : State) : Result :=
  .next (onArrival .crib (gaugeRelease h g) s)

/-- The SAMPLE frame would time its head's capture out in this state (R86). -/
def timesOut (s : State) (h : Fin 4) (g : GaugeFrame) : Bool :=
  let x := headAt s h
  x.status = .ready && monitorPasses (activeCal x) g && gatingKnown g &&
    (match x.slot with
     | .armed c =>
       (match readingEffect s h c (readingOf (activeCal x) g) with
        | .timedOut _ => true
        | .goesOn _ | .settled _ => false)
     | .idle | .latched => false)

/-- SETTLE_TIMEOUT (R86): the SAMPLE frame whose reading is the 64th and settles nothing; the event is the
frame's arrival (log 4), and does not occur in a state where the frame would not time out (log 3). -/
def execSettleTimeout (h : Fin 4) (g : GaugeFrame) (s : State) : Result :=
  .next (if timesOut s h g then onArrival .crib (gaugeSample h g) s else s)

/-- The gauge frame would end a capture of the head that holds a pending switch, otherwise than by a reference
fault (R65). -/
def endsHeldCapture (s : State) (h : Fin 4) (k : SampleKind) (g : GaugeFrame) : Bool :=
  let x := headAt s h
  x.status = .ready && x.pendingCal.isSome &&
    (match x.slot, k with
     | .armed _, .contact => true
     | .armed _, .release => monitorPasses (activeCal x) g
     | .armed c, .sample =>
       monitorPasses (activeCal x) g && gatingKnown g &&
         (match readingEffect s h c (readingOf (activeCal x) g) with
          | .timedOut _ => true
          | .settled _ => true
          | .goesOn _ => false)
     | .idle, _ => false
     | .latched, _ => false)

/-- AT_CAPTURE_END (R65): the gauge frame that ends the capture, with the switch completing after the
capture's notice (log 4); no event in a state where the frame would not (log 3). -/
def execAtCaptureEnd (h : Fin 4) (k : SampleKind) (g : GaugeFrame) (tag : Tag) (s : State) : Result :=
  .next (if endsHeldCapture s h k g then onArrival .crib (gaugeFrame h k g tag) s else s)

end Sys2Proof.Machine
end

