-- ==== Sys2Proof/Machine/Profiles.lean ====
section
/-! DEFINITION. Chapter 7: machine definitions, profile banks and their switches, and the formatting of an
output slot. -/

namespace Sys2Proof.Machine

/-! ## Formatting an output slot (section 7.3) -/

/-- The value of a source at a take (R125); none when the source is absent. -/
def sourceValue (t : TypeRecord) (n : Nat) (r : Assembly) : Source → Option Int
  | .length => r.length.map (·.value)
  | .radius => r.radius.map (·.value)
  | .lengthWear => some r.lengthWear
  | .radiusWear => some r.radiusWear
  | .nominalLength => some t.nominalL
  | .nominalRadius => some t.nominalR
  | .lifeLeft => if t.lifeLimit = 0 then none else some ((t.lifeLimit - r.lifeUsed : Nat) : Int)
  | .assembly => some n
  | .type => some r.type
  | .stateFlags => some (stateFlags t r)

/-- The unit conversion of a length-kind value (R127). -/
def convertUnit (unit : Nat) (v : Int) : Int :=
  match unit with
  | 1 => roundHalfOut v 10
  | 3 => roundHalfOut (v * 10) 254
  | 4 => roundHalfOut (v * 100) 254
  | _ => v

/-- The gauge-line stage (R127): only the source LENGTH takes the offset. -/
def gaugeLine (offset : Int) (src : Source) (v : Int) : Int × Bool :=
  if src = .length then clampLength (v + offset) else (v, false)

/-- The digit-width stage (R128). -/
def limitDigits (w : Nat) (x : Int) : Int × Bool :=
  if 10 ^ w - 1 < x.natAbs then ((if x < 0 then -((10 ^ w - 1 : Nat) : Int) else ((10 ^ w - 1 : Nat) : Int)), true)
  else (x, false)

/-- A present source's slot from its value (R127, R128). -/
def finishSlot (offset : Int) (slot : OutputSlot) (src : Source) (v : Int) : SentSlot :=
  let lined := gaugeLine offset src v
  let converted := if lengthKind src then convertUnit slot.unit lined.1 else lined.1
  let x := limitDigits slot.width (if slot.negate then -converted else converted)
  let blank := slot.blankZero && x.1 = 0
  { width := slot.width, saturated := lined.2 || x.2, blank := blank, absent := false
    value := if blank then 0 else x.1 }

/-- A slot sent with the absent flag and no value (R125). -/
def absentSlot (slot : OutputSlot) : SentSlot :=
  { width := slot.width, saturated := false, blank := false, absent := true, value := 0 }

/-- One output slot of a frame for assembly `n` (R125 to R128). An unknown source belongs to no valid bank
(log 19). -/
def formatSlot (offset : Int) (t : TypeRecord) (n : Nat) (r : Assembly) (slot : OutputSlot) : SentSlot :=
  match (source? slot.source).bind fun src => (sourceValue t n r src).map fun v => (src, v) with
  | some (src, v) => finishSlot offset slot src v
  | none => absentSlot slot

/-! ## Banks -/

/-- A machine's bank content. -/
def profileOf (x : MachineDef) : Bank → Profile
  | .bankA => x.bankA
  | .bankB => x.bankB

/-- A machine with new content in a bank. -/
def withProfile (x : MachineDef) (b : Bank) (content : Profile) : MachineDef :=
  match b with
  | .bankA => { x with bankA := content }
  | .bankB => { x with bankB := content }

/-- A machine's active profile. -/
def activeProfile (x : MachineDef) : Profile := profileOf x x.active

/-- The stored form of a slot (R123); none when a field lies outside its storage range. -/
def storedSlot? (b : SlotBody) : Option OutputSlot :=
  match yesNo? b.negate, yesNo? b.blankZero with
  | some negate, some blankZero =>
    if b.source ≤ 15 ∧ b.unit ≤ 7 ∧ b.width ≤ 15 then some ⟨b.source, b.unit, b.width, negate, blankZero⟩
    else none
  | _, _ => none

/-- The stored forms of a slot list. -/
def storedSlots? : List SlotBody → Option (List OutputSlot)
  | [] => some []
  | b :: rest =>
    match storedSlot? b, storedSlots? rest with
    | some x, some xs => some (x :: xs)
    | _, _ => none

/-- The stored form of a WRITE_PROFILE body (R130 check 2). -/
def storedProfile? (b : ProfileBody) : Option Profile :=
  if b.count ≤ 12 ∧ b.slots.length = b.count ∧ inLengthRange b.offset = true then
    (storedSlots? b.slots).map fun slots => ⟨slots, b.offset⟩
  else none

/-! ## Requests -/

/-- The issue map holds an entry of the machine at a pocket above `size`. -/
def occupiedAbove (s : State) (m size : Nat) : Bool :=
  s.issueMap.any fun e => e.1 / 256 = m && size < e.1 % 256

/-- DEFINE_MACHINE's owner (R121, R122). The OK reply's "definition as stored" is read as the three fields that
the request stores; R119 gives a definition four more items (DESIGN CHOICE, log 25). -/
def ownDefineMachine (m : Nat) (b : MachineBody) (s : State) : Taken :=
  match machineAt s m with
  | none => replied s .badIndex .none
  | some x =>
    match yesNo? b.defined, yesNo? b.push with
    | some defined, some push =>
      if b.magazine = 0 ∨ 240 < b.magazine then replied s .invalidTable .none
      else if defined = x.defined ∧ b.magazine = x.magazine ∧ push = x.push then replied s .noChange .none
      else if x.defined = true ∧ defined = false ∧ (occupiedAbove s m 0 = true ∨ x.switch.isSome = true) then
        replied s .state .none
      else if x.defined = true ∧ defined = true ∧ b.magazine < x.magazine
          ∧ occupiedAbove s m b.magazine = true then replied s .state .none
      else
        effected
          (putMachine m
            { x with defined := defined, magazine := b.magazine, push := push
                     paused := x.paused && !(x.defined && !defined) } s)
          (.definition defined b.magazine push)
    | _, _ => replied s .invalidTable .none

/-- READ_PROFILE's owner (R129). -/
def ownReadProfile (m bank : Nat) (s : State) : Taken :=
  match machineAt s m, bank? bank with
  | some x, some b =>
    replied s .ok
      (.profileBank m b (profileOf x b) (profileReason (profileOf x b)) (x.active = b) x.defined x.magazine x.push
        x.paused (x.switch.map fun w => (w.target, w.marked)))
  | _, _ => replied s .badIndex .none

/-- WRITE_PROFILE's owner (R130, R131). -/
def ownWriteProfile (m bank : Nat) (body : ProfileBody) (s : State) : Taken :=
  match machineAt s m, bank? bank with
  | some x, some b =>
    match storedProfile? body with
    | none => replied s .invalidTable .none
    | some content =>
      if x.active = b ∧ profileValid (profileOf x b) = true then replied s .activeBank .none
      else if x.active ≠ b ∧ x.switch.any (fun w => w.target = b) = true then replied s .busy .none
      else if content = profileOf x b then replied s .noChange .none
      else
        effected (putMachine m (withProfile x b content) s)
          (.profileWritten (profileReason content) (x.active = b))
  | _, _ => replied s .badIndex .none

/-- How many wait-list entries a machine has. -/
def waitingFor (s : State) (m : Nat) : Nat := s.waitList.countP fun e => e.machine = m

/-- Sets or clears the pre-switch mark of every waiting entry of a machine (R132, R133, R135). -/
def remarkWaiting (m : Nat) (mark : Bool) (s : State) : State :=
  { s with waitList := s.waitList.map fun e => if e.machine = m then { e with marked := mark } else e }

/-- SWITCH_PROFILE's owner (R132, R133). -/
def ownSwitchProfile (m bank : Nat) (s : State) : Taken :=
  match machineAt s m, bank? bank with
  | some x, some b =>
    if x.active = b then
      replied (putMachine m { x with switch := none } (if x.switch.isSome then remarkWaiting m false s else s))
        .redundant (.redundant (x.switch.map (·.target)))
    else
      match profileReason (profileOf x b) with
      | some reason => replied s .invalidTable (.profileInvalid reason)
      | none =>
        if x.switch.any (fun w => w.target = b) then replied s .ok .none
        else if waitingFor s m = 0 then
          effected
            (notify (.profileSwitchDone m b x.active false 0) (putMachine m { x with active := b, switch := none } s))
            (.profileSwitched b)
        else
          effected
            (putMachine m { x with switch := some ⟨b, waitingFor s m, waitingFor s m⟩ } (remarkWaiting m true s))
            (.profilePending b (waitingFor s m) x.active)
  | _, _ => replied s .badIndex .none

/-- CANCEL_PROFILE_SWITCH's owner (R135). -/
def ownCancelProfile (m : Nat) (s : State) : Taken :=
  match machineAt s m with
  | none => replied s .badIndex .none
  | some x =>
    match x.switch with
    | none => replied s .state .none
    | some w =>
      effected
        (notify (.profileSwitchCancelled m w.target w.marked)
          (putMachine m { x with switch := none } (remarkWaiting m false s)))
        (.cancelled w.target)

/-- The owner of PAUSE_HANDOFF and RESUME_HANDOFF (R147). -/
def ownSetPaused (m : Nat) (paused : Bool) (s : State) : Taken :=
  match machineAt s m with
  | none => replied s .badIndex (.handoffPaused m (Config.pausedOfNoMachine m) (waitingFor s m))
  | some x =>
    if x.defined = false then replied s .state (.handoffPaused m x.paused (waitingFor s m))
    else if x.paused = paused then replied s .noChange (.handoffPaused m paused (waitingFor s m))
    else replied (putMachine m { x with paused := paused } s) .ok (.handoffPaused m paused (waitingFor s m))

/-- DEFINE_MACHINE (R121). -/
def execDefineMachine (rt m : Nat) (b : MachineBody) (s : State) : Result :=
  .next (tableRequest 0x30 rt (ownDefineMachine m b) s)

/-- WRITE_PROFILE (R130). -/
def execWriteProfile (rt m bank : Nat) (body : ProfileBody) (s : State) : Result :=
  .next (tableRequest 0x31 rt (ownWriteProfile m bank body) s)

/-- READ_PROFILE (R129). -/
def execReadProfile (rt m bank : Nat) (s : State) : Result :=
  .next (openRequest 0x32 rt (ownReadProfile m bank) s)

/-- SWITCH_PROFILE (R132). -/
def execSwitchProfile (rt m bank : Nat) (s : State) : Result :=
  .next (tableRequest 0x33 rt (ownSwitchProfile m bank) s)

/-- CANCEL_PROFILE_SWITCH (R135). -/
def execCancelProfileSwitch (rt m : Nat) (s : State) : Result :=
  .next (tableRequest 0x34 rt (ownCancelProfile m) s)

/-- PAUSE_HANDOFF (R147). -/
def execPauseHandoff (rt m : Nat) (s : State) : Result :=
  .next (openRequest 0x35 rt (ownSetPaused m true) s)

/-- RESUME_HANDOFF (R147). -/
def execResumeHandoff (rt m : Nat) (s : State) : Result :=
  .next (openRequest 0x36 rt (ownSetPaused m false) s)

end Sys2Proof.Machine
end

