-- ==== Sys2Proof/Machine/Handoff.lean ====
section
/-! DEFINITION. Chapter 8: the wait list, the take, entry into service, and machine usage reports. -/

namespace Sys2Proof.Machine

/-! ## The wait list (section 8.1) -/

/-- An entry for the pair waits. -/
def isWaiting (s : State) (p : Place) : Bool :=
  s.waitList.any fun e => e.machine = p.machine && e.pocket = p.pocket

/-- A handoff request folds, joins, or is discarded at a full list (R140). -/
def placeRequest (p : Place) (origin : Origin) (assembly : Option Nat) (s : State) : State :=
  if isWaiting s p then s
  else if s.waitList.length < Config.waitPlaces then
    { s with waitList := s.waitList ++ [⟨p.machine, p.pocket, false⟩] }
  else
    notify (.requestDropped p.machine p.pocket origin assembly)
      { s with handoffDropped := tally s.handoffDropped }

/-- A hall frame of a machine (R163): source refused when its machine is not defined. -/
def fromMachine (m : Nat) (effect : State → State) (s : State) : State :=
  onArrival .hall (fun s => if machineDefined s m then effect s else countLine .hall .sourceRefused s) s

/-- DATA_REQUEST (R139): a pocket of 0 or above 240 is malformed (R164). -/
def execDataRequest (m p : Nat) (s : State) : Result :=
  .next (fromMachine m (fun s =>
    if p = 0 ∨ 240 < p then countLine .hall .malformed s
    else placeRequest ⟨m, p⟩ .dataRequest none s) s)

/-! ## The take (section 8.2) -/

/-- An entry is eligible (R141). -/
def eligible (s : State) (e : WaitEntry) : Bool :=
  (machineAt s e.machine).all fun x => !x.paused && (x.switch.isNone || e.marked)

/-- The entry that a take would remove: the oldest eligible one, when the handoff FIFO has room (R143). -/
def nextTake (s : State) : Option WaitEntry :=
  if s.handoff.length < Config.handoffPlaces then s.waitList.find? (eligible s) else none

/-- What the frame for a place carries (R144, R145). A map entry without a record or machine does not occur
(log 19). -/
def toolContent (s : State) (p : Place) : ToolContent :=
  match occupant s p with
  | none => .empty
  | some n =>
    match machineAt s p.machine, recordAt s n with
    | some x, some r =>
      let profile := activeProfile x
      if profileValid profile = false then .noProfile
      else
        let slots := profile.slots.map (formatSlot profile.offset (typeAt s r.type) n r)
        if r.state = .withdrawn then .locked n x.active slots else .served n x.active slots
    | _, _ => .noProfile

/-- A take of a marked entry lowers the marked count, and completes the switch at 0 (R134). -/
def drainSwitch (m : Nat) (s : State) : State :=
  match machineAt s m with
  | none => s
  | some x =>
    match x.switch with
    | none => s
    | some w =>
      if w.marked ≤ 1 then
        notify (.profileSwitchDone m w.target x.active true w.requested)
          (putMachine m { x with active := w.target, switch := none } s)
      else putMachine m { x with switch := some { w with marked := w.marked - 1 } } s

/-- The take of an entry (R143, R144, R134): the frame is built, then a marked entry drains its switch. -/
def takeEntry (e : WaitEntry) (s : State) : State :=
  let f : HandoffFrame := ⟨e.machine, e.pocket, toolContent s ⟨e.machine, e.pocket⟩, false⟩
  let s := { s with waitList := s.waitList.erase e, handoff := s.handoff ++ [f] }
  if e.marked then drainSwitch e.machine s else s

/-- HANDOFF_TAKE (R143); no take is made without room or without an eligible entry (log 3). -/
def execHandoffTake (s : State) : Result :=
  .next (match nextTake s with
         | some e => grants (takeEntry e s)
         | none => s)

/-- The next take is that of the machine's last marked entry (R134). -/
def drainsAt (s : State) (m : Nat) (e : WaitEntry) : Bool :=
  e.machine = m && e.marked && ((machineAt s m).bind (·.switch)).any fun w => w.marked = 1

/-- AT_DRAIN (R134): the take that brings the machine's marked count to 0 (log 4); no event in a state where
the next take is not that one (log 3). -/
def execAtDrain (m : Nat) (s : State) : Result :=
  .next (match nextTake s with
         | some e => if drainsAt s m e then grants (takeEntry e s) else s
         | none => s)

/-! ## Entry into service (section 8.3) -/

/-- The completion of a handoff frame (R146): an unvoided SERVED frame brings an assembly that is ISSUED at the
frame's place into service. -/
def enterService (f : HandoffFrame) (s : State) : State :=
  match f.content, f.void with
  | .served n _ _, false =>
    match recordAt s n with
    | none => s
    | some r =>
      if r.state = .issued ∧ r.location = some ⟨f.machine, f.pocket⟩ then
        putAssembly n { r with state := .inService } s
      else s
  | _, _ => s

/-! ## Usage reports (section 8.6) -/

/-- The report with its minutes and wears limited (R149). -/
def limitedReport (u : UsageReport) : UsageReport :=
  { u with minutes := min u.minutes 1000, lengthWear := (clampLength u.lengthWear).1
           radiusWear := (clampLength u.radiusWear).1 }

/-- The assembly at the report's pocket; none for a pocket outside 1 to 240 (R150). -/
def atReportedPocket (s : State) (m p : Nat) : Option Nat :=
  if 1 ≤ p ∧ p ≤ 240 then occupant s ⟨m, p⟩ else none

/-- The record after the update of R151. -/
def usedRecord (u : UsageReport) (r : Assembly) : Assembly :=
  { r with lifeUsed := min (r.lifeUsed + u.minutes) 65535, lengthWear := u.lengthWear
           radiusWear := u.radiusWear }

/-- A wear exceeds a limit above 0 (R152). -/
def wearExceeds (limit wear : Int) : Bool := 0 < limit && limit < wear.natAbs

/-- The withdrawal condition that a report meets, the first of R152. -/
def withdrawalReason (t : TypeRecord) (broken : Bool) (r : Assembly) : Option Reason :=
  if broken then some .break_
  else if 0 < t.lifeLimit ∧ t.lifeLimit ≤ r.lifeUsed then some .life
  else if wearExceeds t.lengthWearLimit r.lengthWear || wearExceeds t.radiusWearLimit r.radiusWear then
    some .wear
  else none

/-- A withdrawal (R153): the record, WITHDRAWN, and the handoff request for the pocket. -/
def withdraw (n : Nat) (p : Place) (t : TypeRecord) (reason : Reason) (r : Assembly) (s : State) : State :=
  let s := putAssembly n { r with state := .withdrawn, reason := some reason } s
  let s := notify (.withdrawn n r.type p reason r.state r.lifeUsed r.lengthWear r.radiusWear t.lifeLimit
    t.lengthWearLimit t.radiusWearLimit) s
  placeRequest p .withdrawal (some n) s

/-- A matching report on the record of assembly `n` (R151, R152). -/
def takeUsage (n : Nat) (p : Place) (u : UsageReport) (r : Assembly) (s : State) : State :=
  let r' := usedRecord u r
  let t := typeAt s r.type
  match if r.state = .issued ∨ r.state = .inService then withdrawalReason t u.broken r' else none with
  | some reason => withdraw n p t reason r' s
  | none => putAssembly n r' s

/-- A report that does not match (R150). -/
def usageMismatched (m : Nat) (u : UsageReport) (s : State) : State :=
  notify (.usageMismatch m u.pocket u.assembly (atReportedPocket s m u.pocket) u.minutes u.lengthWear
      u.radiusWear u.broken)
    { s with usageMismatch := tally s.usageMismatch }

/-- A USAGE frame at the Usage Unit (R149 to R153). -/
def reportUsage (m : Nat) (report : UsageReport) (s : State) : State :=
  let u := limitedReport report
  if atReportedPocket s m u.pocket = some u.assembly then
    match recordAt s u.assembly with
    | some r => takeUsage u.assembly ⟨m, u.pocket⟩ u r s
    | none => usageMismatched m u s
  else usageMismatched m u s

/-- USAGE (R149). -/
def execUsage (m : Nat) (report : UsageReport) (s : State) : Result :=
  .next (fromMachine m (reportUsage m report) s)

end Sys2Proof.Machine
end

