-- ==== Sys2Proof/Machine/Issue.lean ====
section
/-! DEFINITION. Chapter 6: issue, return, the audit generator and the pocket reads. -/

namespace Sys2Proof.Machine

/-! ## Answers -/

/-- An answer with its optional fields absent (R100). -/
def bareAnswer (action : TagAction) (tag : Tag) (status : AnswerStatus) (place : Option Place) : IssueAnswer :=
  { action := action, tag := tag, status := status, assembly := none, place := place, actual := none
    location := none, life := none, occupying := none, reason := none, draw := none }

/-- One more frame in *tag dropped* of a counter (R99). -/
def dropTag (c : Fin 4) (s : State) : State :=
  { s with tagDropped := s.tagDropped.set c (tally s.tagDropped[c]) }

/-- A TAG frame's arrival: dropped and counted at a full answer FIFO, else taken (R99). -/
def onTag (c : Fin 4) (take : State → State) (s : State) : State :=
  onArrival .crib (fun s => if answerRoom s then take s else dropTag c s) s

/-! ## Issue (section 6.3) -/

/-- What checks 3 to 7 of an ISSUE find for the reviewed record `r` of assembly `n` (R104, R105): the answer
of the first failing check, or none for a grant. -/
def issueRefusal (s : State) (tag : Tag) (p : Place) (n : Nat) (r : Assembly) : Option IssueAnswer :=
  let base : AnswerStatus → IssueAnswer := fun status =>
    { bareAnswer .issue tag status (some p) with assembly := some n }
  let t := typeAt s r.type
  if r.state ≠ .preset then
    some { base .notReady with actual := some r.state, location := if outOfCrib r.state then r.location else none }
  else if t.lifeLimit ≠ 0 ∧ t.lifeLimit ≤ r.lifeUsed then
    some { base .lifeSpent with life := some (r.lifeUsed, t.lifeLimit) }
  else
    match (machineAt s p.machine).filter (·.defined) with
    | none => some (base .unknownMachine)
    | some x =>
      if p.pocket = 0 ∨ x.magazine < p.pocket then some (base .badPocket)
      else (occupant s p).map fun a => { base .pocketOccupied with occupying := some a }

/-- The grant (R106): the map entry, the issue location and the state in one change. -/
def grantIssue (p : Place) (n : Nat) (r : Assembly) (s : State) : State :=
  putAssembly n { r with state := .issued, location := some p }
    { s with issueMap := tableSet s.issueMap (placeKey p) n }

/-- Push-on-issue (R107). -/
def pushOnIssue (p : Place) (n : Nat) (s : State) : State :=
  if (machineAt s p.machine).any (·.push) then placeRequest p .pushOnIssue (some n) s else s

/-- A taken ISSUE (R103 to R107). -/
def takeIssue (c : Fin 4) (tag : Tag) (p : Place) (s : State) : State :=
  match lookupTag s tag with
  | none => pushAnswer (.issueAnswer c (bareAnswer .issue tag .unknownTag (some p))) s
  | some (n, r) =>
    if isHeld s n then
      pushAnswer (.issueAnswer c { bareAnswer .issue tag .held (some p) with assembly := some n }) s
    else
      let s := reviewOnDemand n s
      let r := (recordAt s n).getD r
      match issueRefusal s tag p n r with
      | some answer => pushAnswer (.issueAnswer c answer) s
      | none =>
        pushAnswer (.issueAnswer c { bareAnswer .issue tag .granted (some p) with assembly := some n })
          (pushOnIssue p n (grantIssue p n r s))

/-- ISSUE (R103). -/
def execIssue (c : Fin 4) (tag : Tag) (m p : Nat) (s : State) : Result :=
  .next (onTag c (takeIssue c tag ⟨m, p⟩) s)

/-! ## The audit generator (section 6.5) -/

/-- A step of the generator (R114): the places move up one, and the new place 0 is places 14 and 13 exclusive-or. -/
def auditStep (v : BitVec 15) : BitVec 15 :=
  (v <<< 1) ||| (if v.getLsbD 14 ^^ v.getLsbD 13 then 1 else 0)

/-- SEED_AUDIT's owner (R115). -/
def ownSeedAudit (value : Nat) (s : State) : Taken :=
  if 32767 < value then replied s .invalidTable .none
  else
    let v : BitVec 15 := if value = 0 then 1 else BitVec.ofNat 15 value
    if v = s.audit then replied s .noChange (.audit v.toNat)
    else effected { s with audit := v } (.audit v.toNat)

/-- SEED_AUDIT (R115). -/
def execSeedAudit (rt value : Nat) (s : State) : Result :=
  .next (tableRequest 0x51 rt (ownSeedAudit value) s)

/-! ## Return (section 6.4) -/

/-- The lines of R110. -/
inductive ReturnOutcome where
  | retired
  | recheck
  | audit
  | plain
deriving DecidableEq, Repr

/-- The first line of R110 that holds. -/
def returnOutcome (t : TypeRecord) (r : Assembly) (draw : Nat) : ReturnOutcome :=
  if r.state = .withdrawn then .retired
  else if r.recheck then .recheck
  else if 1 ≤ t.auditThreshold ∧ draw ≤ t.auditThreshold then .audit
  else .plain

/-- An entry set STALE (R3). -/
def staled (e : Option Entry) : Option Entry := e.map fun x => { x with fresh := false }

/-- The record after an accepted return (R109, R110): no issue location, the recheck flag cleared. -/
def returnedRecord (o : ReturnOutcome) (r : Assembly) : Assembly :=
  match o with
  | .retired => { r with state := .retired, location := none, recheck := false }
  | .recheck | .audit =>
    { r with state := .remeasure, location := none, recheck := false, length := staled r.length
             radius := staled r.radius }
  | .plain => { r with state := .preset, location := none, recheck := false }

/-- The answer status of an outcome (R110). -/
def outcomeStatus : ReturnOutcome → AnswerStatus
  | .retired => .returnedRetired
  | .recheck => .returnedRemeasure
  | .audit => .returnedRemeasure
  | .plain => .returnedPreset

/-- The void mark of a SERVED frame that names the assembly (R146). -/
def voidedFor (n : Nat) (f : HandoffFrame) : HandoffFrame :=
  match f.content with
  | .served a _ _ => if a = n then { f with void := true } else f
  | .empty | .noProfile | .locked _ _ _ => f

/-- An accepted return of assembly `n` (R109, R110, R116): the map entry, the generator, the record, the void
marks, and AUDIT_SELECTED when the draw selects. `counter` is absent for a forced return. -/
def acceptReturn (n : Nat) (r : Assembly) (counter : Option (Fin 4)) (s : State) : State :=
  let draw := auditStep s.audit
  let t := typeAt s r.type
  let o := returnOutcome t r draw.toNat
  let s := putAssembly n (returnedRecord o r)
    { s with issueMap := tableEraseValue s.issueMap n, audit := draw, handoff := s.handoff.map (voidedFor n) }
  if o = .audit then
    notify (.auditSelected n r.type draw.toNat t.auditThreshold (r.location.getD ⟨0, 0⟩) counter) s
  else s

/-- A taken RETURN (R108, R109). -/
def takeReturn (c : Fin 4) (tag : Tag) (s : State) : State :=
  match lookupTag s tag with
  | none => pushAnswer (.issueAnswer c (bareAnswer .return_ tag .unknownTag none)) s
  | some (n, r) =>
    if outOfCrib r.state = false then
      pushAnswer (.issueAnswer c
        { bareAnswer .return_ tag .notIssued none with assembly := some n, actual := some r.state }) s
    else
      let draw := (auditStep s.audit).toNat
      let o := returnOutcome (typeAt s r.type) r draw
      pushAnswer (.issueAnswer c
        { bareAnswer .return_ tag (outcomeStatus o) r.location with
          assembly := some n, draw := some draw, reason := if o = .retired then r.reason else none })
        (acceptReturn n r (some c) s)

/-- RETURN (R108). -/
def execReturn (c : Fin 4) (tag : Tag) (s : State) : Result :=
  .next (onTag c (takeReturn c tag) s)

/-- FORCE_RETURN's owner (R112). -/
def ownForceReturn (n : Nat) (s : State) : Taken :=
  if 1023 < n then replied s .badIndex .none
  else
    match recordAt s n with
    | none => replied s .state .none
    | some r =>
      if outOfCrib r.state = false then replied s .state .none
      else
        let draw := (auditStep s.audit).toNat
        let o := returnOutcome (typeAt s r.type) r draw
        effected (acceptReturn n r none s)
          (.forcedReturn n (r.location.getD ⟨0, 0⟩) draw (outcomeStatus o) (returnedRecord o r).state
            (if o = .retired then r.reason else none))

/-- FORCE_RETURN (R112). -/
def execForceReturn (rt n : Nat) (s : State) : Result :=
  .next (tableRequest 0x45 rt (ownForceReturn n) s)

/-! ## READ_POCKETS (R102) -/

/-- The report of a pocket; none for an empty one. -/
def pocketReport (s : State) (m p : Nat) : Option PocketReport :=
  (occupant s ⟨m, p⟩).bind fun n => (recordAt s n).map fun r =>
    ⟨p, n, r.state, if r.state = .withdrawn then r.reason else none, r.recheck, isHeld s n⟩

/-- Examines at most `fuel` pockets from `p` upward until `want` entries are held (R102). -/
def scanPockets (s : State) (m : Nat) : (fuel p want : Nat) → Nat × List PocketReport
  | 0, _, _ => (0, [])
  | _ + 1, _, 0 => (0, [])
  | fuel + 1, p, want + 1 =>
    match pocketReport s m p with
    | some e =>
      let x := scanPockets s m fuel (p + 1) want
      (x.1 + 1, e :: x.2)
    | none =>
      let x := scanPockets s m fuel (p + 1) (want + 1)
      (x.1 + 1, x.2)

/-- READ_POCKETS's owner (R102). -/
def ownReadPockets (m first count : Nat) (s : State) : Taken :=
  match machineAt s m with
  | none => replied s .badIndex .none
  | some x =>
    if first = 0 ∨ 240 < first ∨ count = 0 ∨ 16 < count then replied s .badIndex .none
    else
      let y := scanPockets s m (241 - first) first count
      replied s .ok
        (.pockets m x.defined (if x.defined then x.magazine else 0) y.1
          (if first + y.1 ≤ 240 then some (first + y.1) else none) y.2)

/-- READ_POCKETS (R102). -/
def execReadPockets (rt m first count : Nat) (s : State) : Result :=
  .next (openRequest 0x37 rt (ownReadPockets m first count) s)

end Sys2Proof.Machine
end

