-- ==== Sys2Proof/Machine/Line.lean ====
section
/-! DEFINITION. Chapter 9: transit between the segments, the guard, and the completion of a transmission. -/

namespace Sys2Proof.Machine

/-! ## Transit (R166) -/

/-- One more frame bound for a full transit FIFO, counted on the port where it arrived (R166, R174). -/
def dropTransit (p : Port) (s : State) : State :=
  let x := portAt s p
  putPort p { x with transitDropped := tally x.transitDropped } s

/-- The transit FIFO that a frame arriving at a port enters: toward the other segment (R162). -/
def transitToward (s : State) : Port → List Frame
  | .crib => s.hallTransit
  | .hall => s.cribTransit

/-- Places a frame in that FIFO. -/
def pushTransit (p : Port) (f : Frame) (s : State) : State :=
  match p with
  | .crib => { s with hallTransit := s.hallTransit ++ [f] }
  | .hall => { s with cribTransit := s.cribTransit ++ [f] }

/-- A frame that arrived at `p` and is bound for the other segment: it enters, or is dropped for want of one of
the 8 places (R166). -/
def enterTransit (p : Port) (f : Frame) (s : State) : State :=
  if (transitToward s p).length < Config.transitPlaces then pushTransit p f s else dropTransit p s

/-- The GENERAL frame that arrives at a port, in every byte (R157). -/
def generalFrame (p : Port) (dst src : Nat) (payload : List Byte) : Frame :=
  buildFrame (otherPort p) dst p src 0x0F payload

/-- GENERAL (R166). -/
def execGeneral (p : Port) (dst src : Nat) (payload : List Byte) (s : State) : Result :=
  .next (onArrival p (enterTransit p (generalFrame p dst src payload)) s)

/-! ## The guard (R167, R168) -/

/-- Statuses of a TOOL_DATA payload (section 9.3). -/
inductive ToolStatus where
  | empty | noProfile | locked | served
deriving DecidableEq, Repr

/-- The status of a code (section 9.3). -/
def toolStatus? : Nat → Option ToolStatus
  | 0 => some .empty
  | 1 => some .noProfile
  | 2 => some .locked
  | 3 => some .served
  | _ => none

/-- The code of a status (section 9.3). -/
def toolStatusCode : ToolStatus → Nat
  | .empty => 0
  | .noProfile => 1
  | .locked => 2
  | .served => 3

/-- What the guard reads of a TOOL_DATA payload. -/
structure GuardView where
  pocket : Nat
  status : ToolStatus
  assembly : Nat
deriving DecidableEq, Repr

/-- The payload check of R167; the contents of the slots are not looked at. -/
def guardView? (payload : List Byte) : Option GuardView := do
  let (pocket, bs) ← getU8 payload
  let (status, bs) ← getU8 bs
  let (assembly, bs) ← getU16 bs
  let (bank, bs) ← getU8 bs
  let (slots, _) ← getU8 bs
  let status ← toolStatus? status
  if 1 ≤ pocket ∧ pocket ≤ 240 ∧ assembly ≤ 1023 ∧ bank ≤ 1 ∧ slots ≤ 12
      ∧ payload.length = 6 + 5 * slots then
    some ⟨pocket, status, assembly⟩
  else none

/-- The decision of R167 from the occupant of the pocket: the reason of a block, or none for a passed frame. -/
def guardBlock (s : State) (m : Nat) (v : GuardView) : Option BlockReason :=
  let here := occupant s ⟨m, v.pocket⟩
  match v.status with
  | .served =>
    if here ≠ some v.assembly then some .notAtPocket
    else if (recordAt s v.assembly).any (fun r => r.state = .withdrawn) then some .withdrawnNotLocked
    else none
  | .locked => if here ≠ some v.assembly then some .notAtPocket else none
  | .empty => if here.isSome then some .pocketNotEmpty else none
  | .noProfile => some .statusRefused

/-- The TRANSIT_BLOCKED body (R168). -/
def blockNotice (s : State) (m src : Nat) (v : GuardView) (reason : BlockReason) : NoticeBody :=
  let here := occupant s ⟨m, v.pocket⟩
  let named : Option Nat :=
    match v.status with
    | .served | .locked => some v.assembly
    | .empty | .noProfile => none
  .transitBlocked src m v.pocket (toolStatusCode v.status) named here
    ((here.bind (recordAt s)).map (·.state)) reason

/-- A blocked frame is dropped, counted and reported (R167, R168). -/
def blockTransit (m src : Nat) (v : GuardView) (reason : BlockReason) (s : State) : State :=
  notify (blockNotice s m src v reason) { s with guardBlocked := tally s.guardBlocked }

/-- The crib TOOL_DATA frame, in every byte (R157). -/
def toolDataFrame (m src : Nat) (payload : List Byte) : Frame := buildFrame .hall m .crib src 0x08 payload

/-- The Transit Guard on a crib TOOL_DATA frame for machine `m` (R167). -/
def guardToolData (m src : Nat) (payload : List Byte) (s : State) : State :=
  match guardView? payload with
  | none => countLine .crib .malformed s
  | some v =>
    match guardBlock s m v with
    | some reason => blockTransit m src v reason s
    | none => enterTransit .crib (toolDataFrame m src payload) s

/-- TOOL_DATA (R167). -/
def execToolData (m src : Nat) (payload : List Byte) (s : State) : Result :=
  .next (onArrival .crib (guardToolData m src payload) s)

/-! ## Completion (R172) -/

/-- The frame of a crib source leaves it, and the arbiter is IDLE (R172). -/
def completeCrib (src : CribSource) (s : State) : State :=
  let s := { s with cribEgress := { s.cribEgress with sending := none } }
  match src with
  | .transit => { s with cribTransit := s.cribTransit.tail }
  | .answer => { s with answers := s.answers.tail }
  | .notice => { s with notices := s.notices.tail }

/-- The frame of a hall source leaves it, and the arbiter is IDLE; the formatter acts on its own frame (R172,
R146). -/
def completeHall (src : HallSource) (s : State) : State :=
  let s := { s with hallEgress := { s.hallEgress with sending := none } }
  match src with
  | .transit => { s with hallTransit := s.hallTransit.tail }
  | .handoff =>
    match s.handoff with
    | [] => s
    | f :: rest => enterService f { s with handoff := rest }

/-- The completion of the transmission in progress on a port; the port is IDLE already when there is none
(log 3). -/
def completeOn (p : Port) (s : State) : State :=
  match p with
  | .crib =>
    match s.cribEgress.sending with
    | some (src, _) => grants (completeCrib src s)
    | none => s
  | .hall =>
    match s.hallEgress.sending with
    | some (src, _) => grants (completeHall src s)
    | none => s

/-- TRANSMISSION_COMPLETION (R172, R146). -/
def execTransmissionCompletion (p : Port) (s : State) : Result := .next (completeOn p s)

end Sys2Proof.Machine
end

