-- ==== Sys2Proof/Machine/Management.lean ====
section
/-! DEFINITION. Chapter 10: identity, status, counters, protection, and the three resets. -/

namespace Sys2Proof.Machine

/-! ## Identity and status (R182) -/

/-- IDENTIFY (R182). -/
def execIdentify (rt : Nat) (s : State) : Result :=
  .next (openRequest 0x01 rt (fun s => replied s .ok .identity) s)

/-- What READ_STATUS carries of a head. -/
def headReport (x : Head) : HeadReport := ⟨x.status, x.active, x.pendingCal⟩

/-- What READ_STATUS carries of a capture slot (R77, R182). -/
def slotReport (x : Head) : SlotReport :=
  ⟨slotCode x.slot,
    match x.slot with
    | .armed c => some (c.assembly, c.axis, c.prior, c.bank, c.frames, c.history.length)
    | .idle | .latched => none⟩

/-- The pending profile switches with their machines, in machine order (R182). -/
def switchReports (s : State) : List (Nat × Bank × Nat) :=
  (List.range 31).filterMap fun i =>
    (machineAt s (i + 1)).bind fun x => x.switch.map fun w => (i + 1, w.target, w.marked)

/-- The fields of READ_STATUS, each as it stands when the request is taken (R182, R177). -/
def statusReport (s : State) : StatusReport :=
  { heads := s.heads.toList.map headReport
    slots := s.heads.toList.map slotReport
    sweep := s.sweep
    switches := switchReports s
    protection := s.protection
    key := s.key
    protectionError := s.protectionError
    generation := s.generation
    queues := [s.cribTransit.length, s.hallTransit.length, s.answers.length, s.notices.length,
      s.waitList.length, s.handoff.length]
    discardedNotices := s.discardedNotices
    audit := s.audit.toNat }

/-- READ_STATUS (R182). -/
def execReadStatus (rt : Nat) (s : State) : Result :=
  .next (openRequest 0x02 rt (fun s => replied s .ok (.status (statusReport s))) s)

/-- CLEAR_STATUS's owner (R180). -/
def ownClearStatus (s : State) : Taken :=
  if s.protectionError then replied { s with protectionError := false } .ok .none
  else replied s .noChange .none

/-- CLEAR_STATUS (R180). -/
def execClearStatus (rt : Nat) (s : State) : Result := .next (openRequest 0x03 rt ownClearStatus s)

/-! ## Counters (R183) -/

/-- The five counters of a port in the order of R174. -/
def portCounters (x : PortState) : List Nat :=
  [x.checkError, x.malformed, x.sourceRefused, x.kindRefused, x.transitDropped]

/-- Every event counter of the part in the order of R183 (log 21). -/
def eventCounters (s : State) : List Nat :=
  portCounters s.crib ++ portCounters s.hall ++ [s.guardBlocked] ++ s.heads.toList.map (·.gaugeDiscarded)
    ++ s.tagDropped.toList ++ [s.handoffDropped, s.usageMismatch, s.mgmtDropped]

/-- READ_COUNTERS (R183). -/
def execReadCounters (rt : Nat) (s : State) : Result :=
  .next (openRequest 0x04 rt (fun s => replied s .ok (.counters (eventCounters s))) s)

/-- A port with its counters at 0; its receive state stays. -/
def clearedPort (x : PortState) : PortState := { PortState.reset with receiving := x.receiving }

/-- Every event counter at 0 (R183). -/
def clearedCounters (s : State) : State :=
  { s with
    crib := clearedPort s.crib, hall := clearedPort s.hall, guardBlocked := 0
    heads := s.heads.map fun x => { x with gaugeDiscarded := 0 }
    tagDropped := Vector.replicate 4 0, handoffDropped := 0, usageMismatch := 0, mgmtDropped := 0 }

/-- CLEAR_COUNTERS (R183). -/
def execClearCounters (rt : Nat) (s : State) : Result :=
  .next (openRequest 0x05 rt (fun s => replied (clearedCounters s) .ok .none) s)

/-! ## Protection (R179) -/

/-- The mode of a code; none for a code above 2 (R179). -/
def protection? : Nat → Option Protection
  | 0 => some .open_
  | 1 => some .keyed
  | 2 => some .locked
  | _ => none

/-- SET_PROTECTION's owner (R179): each of its replies carries the mode after the request. -/
def ownSetProtection (mode : Nat) (s : State) : Taken :=
  match protection? mode with
  | none => replied s .invalidTable (.protection s.protection)
  | some m =>
    if m = s.protection then replied s .noChange (.protection m)
    else effected { s with protection := m } (.protection m)

/-- SET_PROTECTION (R179). -/
def execSetProtection (rt mode : Nat) (s : State) : Result :=
  .next (tableRequest 0x70 rt (ownSetProtection mode) s)

/-! ## Line reset (R184) -/

/-- The aborts of R93: the assembly of an ARMED slot takes the prior state that the slot holds, no notice. -/
def abortForReset (s : State) (x : Head) : State :=
  match x.slot with
  | .armed c => setState c.assembly c.prior s
  | .idle | .latched => s

/-- A head after the line reset: no pending switch (R69), slot IDLE (R93), all else kept (R43, R57). -/
def quietHead (x : Head) : Head := { x with pendingCal := none, slot := .idle }

/-- The sweep after the line reset (R40). -/
def restartedSweep (w : Sweep) : Sweep :=
  { state := if 0 < w.marks then .running else .idle, cursor := 0, marks := w.marks, stepped := 0
    otherwise := 0 }

/-- The line reset up to its reply (R184): pending calibration switches go before the captures are aborted. -/
def lineReset (s : State) : State :=
  { s.heads.toList.foldl abortForReset s with
    heads := s.heads.map quietHead
    sweep := restartedSweep s.sweep
    waitList := [], handoff := []
    machines := s.machines.map fun x => { x with switch := none }
    cribTransit := [], hallTransit := []
    cribEgress := { sending := none, pointer := .transit }
    hallEgress := { sending := none, pointer := .transit }
    protectionError := false, answers := [], notices := [], discardedNotices := 0 }

/-- LINE_RESET (R184): the reply is the first frame of the emptied answer FIFO. -/
def execLineReset (rt : Nat) (s : State) : Result :=
  .next (openRequest 0x71 rt (fun s => replied (lineReset s) .ok .none) s)

/-! ## Power-on reset, pin reset and the pins (R185, R178) -/

/-- The initial condition under the pin levels and the waiting commands of `s`. -/
def initialized (s : State) : State :=
  { State.reset with pending := s.pending, key := s.key, resetPin := s.resetPin }

/-- POWER_ON_RESET (R185): the mode is OPEN; the levels at the pins are the pins' own (log 7). -/
def execPowerOnReset (s : State) : Result := .next (initialized s)

/-- The mode that a pin reset leaves (R179, R185). -/
def afterPinReset : Protection → Protection
  | .locked => .locked
  | .open_ | .keyed => .open_

/-- PIN_RESET (R185): the RESET pin is asserted. -/
def execPinReset (s : State) : Result :=
  .next { initialized s with resetPin := true, protection := afterPinReset s.protection }

/-- RESET_PIN_RELEASE (R185): the part takes and sends frames again. -/
def execResetPinRelease (s : State) : Result := .next { s with resetPin := false }

/-- KEY_LINE_CHANGE (R178): the KEY line is a level, sampled at each take. -/
def execKeyLineChange (asserted : Bool) (s : State) : Result := .next { s with key := asserted }

end Sys2Proof.Machine
end

