-- ==== Sys2Proof/Machine/Types.lean ====
section
/-! DEFINITION. Chapter 2: tool types and the review sweep. -/

namespace Sys2Proof.Machine

/-! ## Type writes -/

/-- The required axes of a code; none for an unknown code (R25, section 9.3). -/
def axes? : Nat → Option Axes
  | 0 => some .length
  | 1 => some .lengthRadius
  | _ => none

/-- Every number of the body lies in its field's range (section 2.1); the audit threshold is not tested
(R25). -/
def typeInRange (b : TypeBody) : Bool :=
  inLengthRange b.nominalL && -1000000 ≤ b.lowerL && b.lowerL ≤ 0 && 0 ≤ b.upperL && b.upperL ≤ 1000000
    && inLengthRange b.nominalR && -1000000 ≤ b.lowerR && b.lowerR ≤ 0 && 0 ≤ b.upperR && b.upperR ≤ 1000000
    && 1 ≤ b.band && b.band ≤ 1000 && 0 ≤ b.lengthWearLimit && b.lengthWearLimit ≤ Config.lengthLimit
    && 0 ≤ b.radiusWearLimit && b.radiusWearLimit ≤ Config.lengthLimit

/-- The stored form of a WRITE_TYPE body beside an in-use count (R25); none when a field is out of range. -/
def storedType? (b : TypeBody) (inUse : Nat) : Option TypeRecord :=
  match yesNo? b.defined, axes? b.axes, typeInRange b with
  | some defined, some axes, true =>
    some { defined := defined, axes := axes, nominalL := b.nominalL, lowerL := b.lowerL, upperL := b.upperL
           nominalR := b.nominalR, lowerR := b.lowerR, upperR := b.upperR, band := b.band
           lifeLimit := b.lifeLimit, lengthWearLimit := b.lengthWearLimit
           radiusWearLimit := b.radiusWearLimit, auditThreshold := min b.auditThreshold 32767
           inUse := inUse }
  | _, _, _ => none

/-- The write changes a field that a tolerance write changes (R31). -/
def isToleranceWrite (old new : TypeRecord) : Bool :=
  old.axes ≠ new.axes || old.nominalL ≠ new.nominalL || old.lowerL ≠ new.lowerL || old.upperL ≠ new.upperL
    || old.nominalR ≠ new.nominalR || old.lowerR ≠ new.lowerR || old.upperR ≠ new.upperR

/-- A tolerance write of type `t` marks this record (R32). -/
def toBeMarked (t : Nat) (r : Assembly) : Bool := r.type = t && markable r.state

/-- The record after a tolerance write of type `t` (R32). -/
def markRecord (t : Nat) (r : Assembly) : Assembly := if toBeMarked t r then { r with marked := true } else r

/-- How many records the write newly marks (R32). -/
def newlyMarked (t : Nat) (table : Table Assembly) : Nat :=
  table.countP fun e => toBeMarked t e.2 && !e.2.marked

/-- The sweep starts when marks exist (R33). -/
def startSweep (w : Sweep) : Sweep :=
  if 0 < w.marks then { state := .running, cursor := 0, marks := w.marks, stepped := 0, otherwise := 0 } else w

/-- The marks of a tolerance write of type `t`, and the start of the sweep (R32, R33). -/
def markType (t : Nat) (s : State) : State :=
  { s with
    assemblies := s.assemblies.map fun e => (e.1, markRecord t e.2)
    sweep := startSweep { s.sweep with marks := s.sweep.marks + newlyMarked t s.assemblies } }

/-- WRITE_TYPE's owner (R30 to R32). -/
def ownWriteType (t : Nat) (body : TypeBody) (s : State) : Taken :=
  if 127 < t then replied s .badIndex (.typeNumber t)
  else if s.sweep.state ≠ .idle then replied s .busy (.typeNumber t)
  else
    let old := typeAt s t
    match storedType? body old.inUse with
    | none => replied s .invalidTable (.typeNumber t)
    | some new =>
      if new = old then replied s .noChange (.typeRecord t old)
      else if new.defined = false ∧ 0 < old.inUse then replied s .state (.typeNumber t)
      else
        let s' := putType t new s
        effected (if isToleranceWrite old new then markType t s' else s') (.typeRecord t new)

/-- READ_TYPE's owner (R29). -/
def ownReadType (t : Nat) (s : State) : Taken :=
  if 127 < t then replied s .badIndex .none else replied s .ok (.typeRecord t (typeAt s t))

/-- WRITE_TYPE (R30). -/
def execWriteType (rt t : Nat) (body : TypeBody) (s : State) : Result :=
  .next (tableRequest 0x10 rt (ownWriteType t body) s)

/-- READ_TYPE (R29). -/
def execReadType (rt t : Nat) (s : State) : Result :=
  .next (openRequest 0x11 rt (ownReadType t) s)

/-! ## The sweep engine -/

/-- The lowest-numbered marked assembly at or above the cursor (R34). -/
def nextMarked (s : State) : Option Nat :=
  (s.assemblies.find? fun e => s.sweep.cursor ≤ e.1 && e.2.marked).map (·.1)

/-- The step that evaluates assembly `n` (R34). -/
def stepOn (n : Nat) (s : State) : State :=
  let s := evaluate n s
  { s with sweep := { s.sweep with
      cursor := n + 1, marks := s.sweep.marks - 1, stepped := s.sweep.stepped + 1 } }

/-- The ending step (R35). -/
def endSweep (s : State) : State :=
  notify (.sweepDone s.sweep.stepped s.sweep.otherwise) { s with sweep := { s.sweep with state := .idle } }

/-- One step of the engine in RUNNING (R34, R35). -/
def engineStep (s : State) : State :=
  match nextMarked s with
  | some n => stepOn n s
  | none => endSweep s

/-- SWEEP_STEP (R34): the engine takes no step while the sweep is IDLE or SUSPENDED (log 3). A step that finds
no mark is the ending step (R35). -/
def execSweepStep (s : State) : Result :=
  .next (if s.sweep.state = .running then grants (engineStep s) else s)

/-- SWEEP_END (R35): the ending step; it does not occur while a mark stands at or above the cursor (log 3). -/
def execSweepEnd (s : State) : Result :=
  .next (if s.sweep.state = .running ∧ nextMarked s = none then grants (endSweep s) else s)

/-- The fields of a SWEEP_SUSPEND or SWEEP_RESUME reply (R36). -/
def sweepFields (s : State) : ReplyBody := .sweep s.sweep.state s.sweep.cursor s.sweep.marks

/-- Moves the sweep from one state to another, or replies STATE (R36). -/
def ownMoveSweep (source target : SweepState) (s : State) : Taken :=
  if s.sweep.state = source then
    let s' := { s with sweep := { s.sweep with state := target } }
    replied s' .ok (sweepFields s')
  else replied s .state (sweepFields s)

/-- SWEEP_SUSPEND (R36). -/
def execSweepSuspend (rt : Nat) (s : State) : Result :=
  .next (openRequest 0x60 rt (ownMoveSweep .running .suspended) s)

/-- SWEEP_RESUME (R36). -/
def execSweepResume (rt : Nat) (s : State) : Result :=
  .next (openRequest 0x61 rt (ownMoveSweep .suspended .running) s)

end Sys2Proof.Machine
end

