-- ==== Sys2Proof/Machine/Reception.lean ====
section
/-! DEFINITION. A frame from the line's first byte to its consumer (R160 to R164), and a management request
that spells no row of its own (R176). -/

namespace Sys2Proof.Machine

/-- The management request that a code and a body spell, at its owner. The rows that no MGMT frame carries are
not reached from one. -/
def runRequest (i : Instr) (s : State) : Result :=
  match i with
  | .identify rt => execIdentify rt s
  | .readStatus rt => execReadStatus rt s
  | .clearStatus rt => execClearStatus rt s
  | .readCounters rt => execReadCounters rt s
  | .clearCounters rt => execClearCounters rt s
  | .writeType rt t body => execWriteType rt t body s
  | .readType rt t => execReadType rt t s
  | .writeCal rt h b body => execWriteCal rt h b body s
  | .readCal rt h b => execReadCal rt h b s
  | .switchCal rt h b => execSwitchCal rt h b s
  | .cancelCalSwitch rt h => execCancelCalSwitch rt h s
  | .headRestore rt h => execHeadRestore rt h s
  | .defineMachine rt m body => execDefineMachine rt m body s
  | .writeProfile rt m b body => execWriteProfile rt m b body s
  | .readProfile rt m b => execReadProfile rt m b s
  | .switchProfile rt m b => execSwitchProfile rt m b s
  | .cancelProfileSwitch rt m => execCancelProfileSwitch rt m s
  | .pauseHandoff rt m => execPauseHandoff rt m s
  | .resumeHandoff rt m => execResumeHandoff rt m s
  | .readPockets rt m first count => execReadPockets rt m first count s
  | .create rt n t tag => execCreate rt n t tag s
  | .restore rt n body => execRestore rt n body s
  | .changeType rt n t => execChangeType rt n t s
  | .bindTag rt n tag => execBindTag rt n tag s
  | .unbindTag rt n => execUnbindTag rt n s
  | .rebuild rt n => execRebuild rt n s
  | .delete rt n => execDelete rt n s
  | .readAssemblies rt start count => execReadAssemblies rt start count s
  | .forceReturn rt n => execForceReturn rt n s
  | .writeHolds rt w body => execWriteHolds rt w body s
  | .seedAudit rt value => execSeedAudit rt value s
  | .sweepSuspend rt => execSweepSuspend rt s
  | .sweepResume rt => execSweepResume rt s
  | .setProtection rt mode => execSetProtection rt mode s
  | .lineReset rt => execLineReset rt s
  | .powerOnReset | .pinReset | .frameArrival .. | .contact .. | .sample .. | .release .. | .issue ..
  | .returnHolder .. | .dataRequest .. | .usage .. | .general .. | .toolData ..
  | .transmissionCompletion .. | .handoffTake | .sweepStep | .sweepEnd | .settleTimeout ..
  | .atCaptureEnd .. | .atDrain .. | .unknownRequest .. | .resetPinRelease | .keyLineChange .. => .next s

/-- The status of a request that fails check 1 or 2 of R176. -/
def unreadableStatus (code : Nat) : Status := if code ∈ requestCodes then .invalidTable else .unknownRequest

/-- UNKNOWN_REQUEST (R176): checks 1 and 2 come before the protection check, and the reply carries the
generation alone. A body that does spell a request is that request (log 20). -/
def execUnknownRequest (code rt : Nat) (body : List Byte) (s : State) : Result :=
  match decodeRequest code rt body with
  | some i => runRequest i s
  | none => .next (openRequest code rt (fun s => replied s (unreadableStatus code) .none) s)

/-- The command that a frame spells, at its consumer. -/
def runArrival (i : Instr) (s : State) : Result :=
  match i with
  | .contact h g tag => execContact h g tag s
  | .sample h g => execSample h g s
  | .release h g => execRelease h g s
  | .issue c tag m p => execIssue c tag m p s
  | .returnHolder c tag => execReturn c tag s
  | .dataRequest m p => execDataRequest m p s
  | .usage m report => execUsage m report s
  | .general p dst src payload => execGeneral p dst src payload s
  | .toolData m src payload => execToolData m src payload s
  | .unknownRequest code rt body => execUnknownRequest code rt body s
  | i => runRequest i s

/-- The bytes that a port's reception holds once more have come in (R165): a start delimiter begins it, and
bytes before one belong to no frame. -/
def receivedOn (x : PortState) (bytes : List Byte) : Frame :=
  if x.receiving = [] then bytes.dropWhile (· ≠ startDelimiter) else x.receiving ++ bytes

/-- A frame whose reception has ended (R160 to R164): dropped and counted, ignored, or handed to its consumer
in the same event. -/
def arrive (p : Port) (frame : Frame) (s : State) : Result :=
  match arrivalOf (machineDefined s) p frame with
  | .counted c => .next (onArrival p (countLine p c) s)
  | .ignored => .next (onArrival p id s)
  | .command i => runArrival i s

/-- FRAME_ARRIVAL (R160 to R165): bytes that do not end their frame are kept in the port's receive state and
have no other effect, and the frame arrives with its last. The port takes nothing while the RESET pin is
asserted (R185, log 6). That a piece of a frame is an event of this row is the model's choice (log 14). -/
def execFrameArrival (p : Port) (r : Reception) (s : State) : Result :=
  if s.resetPin then .next s
  else
    match receivedOn (portAt s p) r.bytes, r.ended with
    | [], _ => .next s
    | frame, true => arrive p frame s
    | part, false => .next (putPort p { portAt s p with receiving := part } s)

end Sys2Proof.Machine
end

