-- ==== Sys2Proof/Machine/Dispatch.lean ====
section
/-! DEFINITION. One arm per command. -/

namespace Sys2Proof.Machine

def exec (i : Instr) (s : State) : Host.Outcome State Fault Refusal :=
  match i with
  | .powerOnReset => Sys2Proof.Machine.execPowerOnReset s
  | .pinReset => Sys2Proof.Machine.execPinReset s
  | .frameArrival port bytes => Sys2Proof.Machine.execFrameArrival port bytes s
  | .contact head g tag => Sys2Proof.Machine.execContact head g tag s
  | .sample head g => Sys2Proof.Machine.execSample head g s
  | .release head g => Sys2Proof.Machine.execRelease head g s
  | .issue counter tag machine pocket => Sys2Proof.Machine.execIssue counter tag machine pocket s
  | .returnHolder counter tag => Sys2Proof.Machine.execReturn counter tag s
  | .dataRequest machine pocket => Sys2Proof.Machine.execDataRequest machine pocket s
  | .usage machine report => Sys2Proof.Machine.execUsage machine report s
  | .general port dst src payload => Sys2Proof.Machine.execGeneral port dst src payload s
  | .toolData machine src payload => Sys2Proof.Machine.execToolData machine src payload s
  | .transmissionCompletion port => Sys2Proof.Machine.execTransmissionCompletion port s
  | .handoffTake => Sys2Proof.Machine.execHandoffTake s
  | .sweepStep => Sys2Proof.Machine.execSweepStep s
  | .sweepEnd => Sys2Proof.Machine.execSweepEnd s
  | .settleTimeout head g => Sys2Proof.Machine.execSettleTimeout head g s
  | .atCaptureEnd head kind g tag => Sys2Proof.Machine.execAtCaptureEnd head kind g tag s
  | .atDrain machine => Sys2Proof.Machine.execAtDrain machine s
  | .identify rt => Sys2Proof.Machine.execIdentify rt s
  | .readStatus rt => Sys2Proof.Machine.execReadStatus rt s
  | .clearStatus rt => Sys2Proof.Machine.execClearStatus rt s
  | .readCounters rt => Sys2Proof.Machine.execReadCounters rt s
  | .clearCounters rt => Sys2Proof.Machine.execClearCounters rt s
  | .writeType rt type body => Sys2Proof.Machine.execWriteType rt type body s
  | .readType rt type => Sys2Proof.Machine.execReadType rt type s
  | .writeCal rt head bank body => Sys2Proof.Machine.execWriteCal rt head bank body s
  | .readCal rt head bank => Sys2Proof.Machine.execReadCal rt head bank s
  | .switchCal rt head bank => Sys2Proof.Machine.execSwitchCal rt head bank s
  | .cancelCalSwitch rt head => Sys2Proof.Machine.execCancelCalSwitch rt head s
  | .headRestore rt head => Sys2Proof.Machine.execHeadRestore rt head s
  | .defineMachine rt machine body => Sys2Proof.Machine.execDefineMachine rt machine body s
  | .writeProfile rt machine bank body => Sys2Proof.Machine.execWriteProfile rt machine bank body s
  | .readProfile rt machine bank => Sys2Proof.Machine.execReadProfile rt machine bank s
  | .switchProfile rt machine bank => Sys2Proof.Machine.execSwitchProfile rt machine bank s
  | .cancelProfileSwitch rt machine => Sys2Proof.Machine.execCancelProfileSwitch rt machine s
  | .pauseHandoff rt machine => Sys2Proof.Machine.execPauseHandoff rt machine s
  | .resumeHandoff rt machine => Sys2Proof.Machine.execResumeHandoff rt machine s
  | .readPockets rt machine first count => Sys2Proof.Machine.execReadPockets rt machine first count s
  | .create rt number type tag => Sys2Proof.Machine.execCreate rt number type tag s
  | .restore rt number body => Sys2Proof.Machine.execRestore rt number body s
  | .changeType rt number type => Sys2Proof.Machine.execChangeType rt number type s
  | .bindTag rt number tag => Sys2Proof.Machine.execBindTag rt number tag s
  | .unbindTag rt number => Sys2Proof.Machine.execUnbindTag rt number s
  | .rebuild rt number => Sys2Proof.Machine.execRebuild rt number s
  | .delete rt number => Sys2Proof.Machine.execDelete rt number s
  | .readAssemblies rt start count => Sys2Proof.Machine.execReadAssemblies rt start count s
  | .forceReturn rt number => Sys2Proof.Machine.execForceReturn rt number s
  | .writeHolds rt window body => Sys2Proof.Machine.execWriteHolds rt window body s
  | .seedAudit rt value => Sys2Proof.Machine.execSeedAudit rt value s
  | .sweepSuspend rt => Sys2Proof.Machine.execSweepSuspend rt s
  | .sweepResume rt => Sys2Proof.Machine.execSweepResume rt s
  | .setProtection rt mode => Sys2Proof.Machine.execSetProtection rt mode s
  | .lineReset rt => Sys2Proof.Machine.execLineReset rt s
  | .unknownRequest code rt body => Sys2Proof.Machine.execUnknownRequest code rt body s
  | .resetPinRelease => Sys2Proof.Machine.execResetPinRelease s
  | .keyLineChange asserted => Sys2Proof.Machine.execKeyLineChange asserted s

end Sys2Proof.Machine
end

