-- ==== Sys2Proof/WellFormed.lean ====
section
/-! DEFINITION. Which commands a station, a pin or the part's own engines can give: every operand lies in
what its field carries on the line (section 9.3, R159). A value that a rule refuses is still well formed. -/

namespace Sys2Proof

/-- A one-byte number. -/
def isU8 (n : Nat) : Bool := n < 256

/-- A two-byte number. -/
def isU16 (n : Nat) : Bool := n < 65536

/-- A four-byte number in two's complement. -/
def isI32 (x : Int) : Bool := -2147483648 ≤ x && x ≤ 2147483647

/-- The counts of a GAUGE frame fit their fields. -/
def GaugeFrame.wellFormed (g : GaugeFrame) : Bool :=
  isU8 g.axis && isU8 g.gating && isI32 g.scale && isU16 g.sensor && isU16 g.reference && isU8 g.temperature

/-- The fields of a USAGE frame fit. -/
def UsageReport.wellFormed (u : UsageReport) : Bool :=
  isU8 u.pocket && isU16 u.assembly && isU16 u.minutes && isI32 u.lengthWear && isI32 u.radiusWear

/-- A place fits its two bytes. -/
def Place.wellFormed (p : Place) : Bool := isU8 p.machine && isU8 p.pocket

/-- The WRITE_TYPE body fits its fields. -/
def TypeBody.wellFormed (b : TypeBody) : Bool :=
  isU8 b.defined && isU8 b.axes && isI32 b.nominalL && isI32 b.lowerL && isI32 b.upperL && isI32 b.nominalR
    && isI32 b.lowerR && isI32 b.upperR && isI32 b.band && isU16 b.lifeLimit && isI32 b.lengthWearLimit
    && isI32 b.radiusWearLimit && isU16 b.auditThreshold

/-- The WRITE_CAL body fits its fields, and its list fits a payload of 240 bytes. -/
def CalBody.wellFormed (b : CalBody) : Bool :=
  isU8 b.count && b.breakpoints.all (fun p => isI32 p.q && isI32 p.g) && b.breakpoints.length ≤ 27
    && isU16 b.scaleNum && isU16 b.scaleDen && isI32 b.zero && isU16 b.alpha && isU16 b.refMin
    && isU16 b.refMax && isU8 b.depth

/-- The WRITE_PROFILE body fits its fields, and its list fits a payload of 240 bytes. -/
def ProfileBody.wellFormed (b : ProfileBody) : Bool :=
  isU8 b.count
    && b.slots.all (fun t => isU8 t.source && isU8 t.unit && isU8 t.width && isU8 t.negate && isU8 t.blankZero)
    && b.slots.length ≤ 46 && isI32 b.offset

/-- The DEFINE_MACHINE body fits its fields. -/
def MachineBody.wellFormed (b : MachineBody) : Bool := isU8 b.defined && isU8 b.magazine && isU8 b.push

/-- An axis entry of RESTORE fits its fields. -/
def EntryBody.wellFormed (b : EntryBody) : Bool :=
  isI32 b.value && isU8 b.freshness && isU8 b.clamp && isU8 b.head && isU8 b.bank

/-- The RESTORE body fits its fields. -/
def RestoreBody.wellFormed (b : RestoreBody) : Bool :=
  isU8 b.type && b.length.all EntryBody.wellFormed && b.radius.all EntryBody.wellFormed && isU16 b.lifeUsed
    && isI32 b.lengthWear && isI32 b.radiusWear && isU8 b.recheck && b.reason.all isU8 && isU8 b.target
    && b.location.all Place.wellFormed

/-- The WRITE_HOLDS fields fit. -/
def HoldBody.wellFormed (b : HoldBody) : Bool :=
  isU8 b.enabled && isU16 b.base && isU8 b.exponent && isU8 b.complement

/-- A node that is a station of a segment and not the TH4 (section 9.1). -/
def isStation (n : Nat) : Bool := 1 ≤ n && n ≤ 31

/-- Every operand of the command lies in what its frame, pin or request can carry. -/
def Instr.wellFormed : Instr → Bool
  | .powerOnReset | .pinReset | .handoffTake | .sweepStep | .sweepEnd | .resetPinRelease => true
  | .transmissionCompletion _ | .keyLineChange _ => true
  | .frameArrival _ bytes => bytes.ended || !bytes.bytes.isEmpty
  | .contact _ g _ | .sample _ g | .release _ g | .settleTimeout _ g | .atCaptureEnd _ _ g _ => g.wellFormed
  | .issue _ _ machine pocket => isU8 machine && isU8 pocket
  | .returnHolder _ _ => true
  | .dataRequest machine pocket => isStation machine && (1 ≤ pocket && pocket ≤ 240)
  | .usage machine report => isStation machine && report.wellFormed
  | .general _ dst src payload => isStation dst && src < 32 && payload.length ≤ 240
  | .toolData machine src payload => isStation machine && src < 32 && payload.length ≤ 240
  | .atDrain machine => isStation machine
  | .identify rt | .readStatus rt | .clearStatus rt | .readCounters rt | .clearCounters rt
  | .sweepSuspend rt | .sweepResume rt | .lineReset rt => isU8 rt
  | .writeType rt type body => isU8 rt && isU8 type && body.wellFormed
  | .readType rt a | .cancelCalSwitch rt a | .headRestore rt a | .cancelProfileSwitch rt a
  | .pauseHandoff rt a | .resumeHandoff rt a | .setProtection rt a => isU8 rt && isU8 a
  | .writeCal rt head bank body => isU8 rt && isU8 head && isU8 bank && body.wellFormed
  | .readCal rt a b | .switchCal rt a b | .readProfile rt a b | .switchProfile rt a b =>
    isU8 rt && isU8 a && isU8 b
  | .defineMachine rt machine body => isU8 rt && isU8 machine && body.wellFormed
  | .writeProfile rt machine bank body => isU8 rt && isU8 machine && isU8 bank && body.wellFormed
  | .readPockets rt machine first count => isU8 rt && isU8 machine && isU8 first && isU8 count
  | .create rt number type _ => isU8 rt && isU16 number && isU8 type
  | .restore rt number body => isU8 rt && isU16 number && body.wellFormed
  | .changeType rt number type => isU8 rt && isU16 number && isU8 type
  | .bindTag rt number _ | .unbindTag rt number | .rebuild rt number | .delete rt number
  | .forceReturn rt number => isU8 rt && isU16 number
  | .readAssemblies rt start count => isU8 rt && isU16 start && isU8 count
  | .writeHolds rt window body => isU8 rt && isU8 window && body.wellFormed
  | .seedAudit rt value => isU8 rt && isU16 value
  | .unknownRequest code rt body =>
    isU8 code && isU8 rt && body.length ≤ 238 && (decodeRequest code rt body).isNone

end Sys2Proof
end

