-- ==== Sys2Proof/Safety.lean ====
section
/-! DEFINITION. The terms that claims use: what a legal state of the part is, rule by rule, and what a refused
or answered request leaves. -/

namespace Sys2Proof.Machine

/-! ## What a frame leaves besides its effect -/

/-- The state once the frame in reception at a port has ended (R165). -/
def heard (p : Port) (s : State) : State := putPort p { portAt s p with receiving := [] } s

/-- `s` with `a` as the youngest frame of the answer FIFO (R177), the frame on the crib port having ended. -/
def answered (a : Answer) (s : State) : State :=
  { s with crib := { s.crib with receiving := [] }, answers := s.answers ++ [a] }

/-- An MGMT frame is taken: the RESET pin is released and the answer FIFO has room (R175, R185). -/
def RequestTaken (s : State) : Prop := s.resetPin = false ∧ s.answers.length < Config.answerPlaces

/-- A table-writing request is taken and passes the protection check (R178). -/
def WriteTaken (s : State) : Prop := RequestTaken s ∧ protectionPasses s = true

/-- The request codes that section 10.1 marks as protected. -/
def protectedCodes : List Nat :=
  [0x10, 0x20, 0x22, 0x23, 0x24, 0x30, 0x31, 0x33, 0x34, 0x40, 0x41, 0x42, 0x43, 0x45, 0x50, 0x51, 0x70]

/-- The row is a management request that section 10.1 lists. -/
def listedRequest (i : Instr) : Bool :=
  match i with
  | .unknownRequest .. => false
  | i => (encodeRequest i).isSome

/-- The row is a table-writing request (section 10.1). -/
def tableWriting (i : Instr) : Bool :=
  listedRequest i && (encodeRequest i).any fun x => x.1 ∈ protectedCodes

/-! ## Legal states -/

/-- The capture of an ARMED slot (R77). -/
def armedCapture (x : Head) : Option Capture :=
  match x.slot with
  | .armed c => some c
  | .idle | .latched => none

/-- The assembly that a head's ARMED slot names. -/
def armedOn (s : State) (h : Fin 4) : Option Nat := (armedCapture (headAt s h)).map (·.assembly)

/-- Every queue within its places, every counter within its width, the audit value in 1 to 32,767 (R114, R138,
R142, R166, R174, R177, R181, R186). -/
def CountsInRange (s : State) : Prop :=
  s.cribTransit.length ≤ 8 ∧ s.hallTransit.length ≤ 8 ∧ s.answers.length ≤ 8 ∧ s.notices.length ≤ 24
    ∧ s.waitList.length ≤ 32 ∧ s.handoff.length ≤ 4
    ∧ (∀ n ∈ eventCounters s, n ≤ 65535) ∧ s.discardedNotices ≤ 255 ∧ s.generation ≤ 65535
    ∧ 1 ≤ s.audit.toNat

/-- The three tables in their canonical form, assembly numbers 0 to 1023. -/
def TablesCanonical (s : State) : Prop :=
  s.assemblies.Pairwise (fun a b => a.1 < b.1) ∧ (∀ e ∈ s.assemblies, e.1 < 1024)
    ∧ s.tagMap.Pairwise (fun a b => a.1 < b.1) ∧ s.issueMap.Pairwise (fun a b => a.1 < b.1)

/-- A stored type record holds only values of section 2.1 (R25). -/
def TypeLegal (t : TypeRecord) : Prop :=
  inLengthRange t.nominalL = true ∧ -1000000 ≤ t.lowerL ∧ t.lowerL ≤ 0 ∧ 0 ≤ t.upperL ∧ t.upperL ≤ 1000000
    ∧ inLengthRange t.nominalR = true ∧ -1000000 ≤ t.lowerR ∧ t.lowerR ≤ 0 ∧ 0 ≤ t.upperR
    ∧ t.upperR ≤ 1000000 ∧ 1 ≤ t.band ∧ t.band ≤ 1000 ∧ 0 ≤ t.lengthWearLimit
    ∧ t.lengthWearLimit ≤ Config.lengthLimit ∧ 0 ≤ t.radiusWearLimit
    ∧ t.radiusWearLimit ≤ Config.lengthLimit ∧ t.auditThreshold ≤ 32767

/-- A stored hold window: the base is a multiple of the size (section 1.6). -/
def WindowLegal (w : HoldWindow) : Prop := w.base ≤ 1023 ∧ w.exponent ≤ 10 ∧ w.base % 2 ^ w.exponent = 0

/-- A stored machine definition (R119, R122, R123). -/
def MachineLegal (x : MachineDef) : Prop :=
  1 ≤ x.magazine ∧ x.magazine ≤ 240 ∧ (x.paused = true → x.defined = true) ∧ x.bankA.slots.length ≤ 12
    ∧ x.bankB.slots.length ≤ 12

/-- The stored types, windows and machine definitions. -/
def StoresLegal (s : State) : Prop :=
  (∀ t ∈ s.types.toList, TypeLegal t) ∧ (∀ w ∈ s.holds.toList, WindowLegal w)
    ∧ ∀ x ∈ s.machines.toList, MachineLegal x

/-- A head: UNCALIBRATED exactly while its active bank is invalid (R45), its slot IDLE unless it is READY (R46),
a pending switch only during a capture and to a valid inactive bank (R64), a capture on the active bank with 1
to 63 readings taken and at most K kept (R77, R82). -/
def HeadLegal (x : Head) : Prop :=
  (x.status = .uncalibrated ↔ calValid (activeCal x) = false)
    ∧ (x.status ≠ .ready → x.slot = .idle)
    ∧ (x.pendingCal.all fun b => b ≠ x.active && calValid (calBankOf x b) && (armedCapture x).isSome) = true
    ∧ ((armedCapture x).all fun c => c.bank = x.active && 1 ≤ c.frames && c.frames ≤ 63
        && c.history.length ≤ (activeCal x).depth) = true

/-- The four heads. -/
def HeadsLegal (s : State) : Prop := ∀ x ∈ s.heads.toList, HeadLegal x

/-- An assembly is MEASURING exactly when exactly one ARMED slot names it (R81), and the prior state of the
capture is one from which a contact is taken (R79, R11). -/
def CapturesMatch (s : State) : Prop :=
  (∀ h : Fin 4, ((armedCapture (headAt s h)).all fun c =>
      contactable c.prior && (recordAt s c.assembly).any fun r => r.state = .measuring) = true)
    ∧ (∀ h h' : Fin 4, h ≠ h' → armedOn s h = armedOn s h' → armedOn s h = none)
    ∧ ∀ e ∈ s.assemblies, e.2.state = .measuring → ∃ h : Fin 4, armedOn s h = some e.1

/-- The tag map holds exactly the tags of the records (R5). -/
def TagsMatch (s : State) : Prop :=
  (∀ e ∈ s.tagMap, ((recordAt s e.2).any fun r => r.tag.any fun t => t.toNat = e.1) = true)
    ∧ ∀ e ∈ s.assemblies, (e.2.tag.all fun t => tableGet s.tagMap t.toNat = some e.1) = true

/-- The issue map holds exactly the issue locations of the assemblies out of the crib (R101), and the optional
fields of a record follow its state (R2). -/
def PlacesMatch (s : State) : Prop :=
  (∀ e ∈ s.issueMap, ((recordAt s e.2).any fun r =>
      outOfCrib r.state && r.location.map placeKey = some e.1) = true)
    ∧ ∀ e ∈ s.assemblies, e.2.location.isSome = outOfCrib e.2.state
        ∧ (e.2.location.all fun p => tableGet s.issueMap (placeKey p) = some e.1) = true
        ∧ (e.2.state = .withdrawn → e.2.reason.isSome = true)
        ∧ (e.2.reason.isSome = true → e.2.state = .withdrawn ∨ e.2.state = .retired)

/-- Every entry of the issue map lies in the magazine of a defined machine (R101). -/
def MagazinesHold (s : State) : Prop :=
  ∀ e ∈ s.issueMap, ((machineAt s (e.1 / 256)).any fun x =>
    x.defined && 1 ≤ e.1 % 256 && e.1 % 256 ≤ x.magazine) = true

/-- The in-use counts are the numbers of records of each type, and every record's type is defined (R26, R27). -/
def TypesCounted (s : State) : Prop :=
  (∀ i : Fin 128, s.types[i].inUse = s.assemblies.countP fun e => e.2.type = i.val)
    ∧ ∀ e ∈ s.assemblies, typeUsable s e.2.type = true

/-- The mark count is the number of marked records, every mark is at or above the cursor, and an IDLE sweep has
none (R33, R35). -/
def MarksCounted (s : State) : Prop :=
  s.sweep.marks = s.assemblies.countP (fun e => e.2.marked)
    ∧ (∀ e ∈ s.assemblies, e.2.marked = true → s.sweep.cursor ≤ e.1)
    ∧ (s.sweep.state = .idle → s.sweep.marks = 0) ∧ s.sweep.cursor ≤ 1024

/-- No two entries of the wait list name the same pair (R138). -/
def WaitersDistinct (s : State) : Prop := (s.waitList.map fun e => (e.machine, e.pocket)).Nodup

/-- How many entries of a machine carry the pre-switch mark. -/
def markedFor (s : State) (m : Nat) : Nat := s.waitList.countP fun e => e.machine = m && e.marked

/-- A pending profile switch counts the marked entries of its machine and targets its valid inactive bank; no
other entry carries a mark (R119, R130, R133, R134). -/
def SwitchesCounted (s : State) : Prop :=
  (∀ e ∈ s.waitList, e.marked = true → ((machineAt s e.machine).any fun x => x.switch.isSome) = true)
    ∧ ∀ i : Fin 31, ((s.machines[i]).switch.all fun w =>
        w.target ≠ (s.machines[i]).active && profileValid (profileOf (s.machines[i]) w.target) && 1 ≤ w.marked
          && w.marked = markedFor s (i + 1)) = true

/-- Each port sends exactly while one of its sources holds a frame, and what it sends is the oldest frame of
the granted source (R171, R172). -/
def PortsBusy (s : State) : Prop :=
  (s.cribEgress.sending = none → s.cribTransit = [] ∧ s.answers = [] ∧ s.notices = [])
    ∧ (s.cribEgress.sending.all fun x => cribFront s x.1 = some x.2) = true
    ∧ (s.hallEgress.sending = none → s.hallTransit = [] ∧ s.handoff = [])
    ∧ (s.hallEgress.sending.all fun x => hallFront s x.1 = some x.2) = true

/-- While the RESET pin is asserted the part is in its initial condition (R185). -/
def InitialUnderReset (s : State) : Prop :=
  s.resetPin = true →
    s = { State.reset with pending := s.pending, key := s.key, resetPin := true, protection := s.protection }

/-- An axis that R10 passes: its entry is present, FRESH and without a clamp mark, and its deviation from the
nominal value is within the tolerance, limits included. -/
def axisPasses (e : Option Entry) (nominal lower upper : Int) : Bool :=
  e.any fun x => x.fresh && !x.clamped && lower ≤ x.value - nominal && x.value - nominal ≤ upper

/-- An unmarked assembly that is PRESET, or may come back to PRESET without a new judgement, has every axis that
its type requires passing under the type as it now stands (R10). -/
def PresetSound (s : State) : Prop :=
  ∀ e ∈ s.assemblies, e.2.marked = false →
    (e.2.state = .preset
        ∨ ((e.2.state = .issued ∨ e.2.state = .inService) ∧ e.2.recheck = false)
        ∨ ∃ h : Fin 4, ((armedCapture (headAt s h)).any fun c =>
            c.assembly = e.1 && c.prior = .preset) = true) →
      let t := typeAt s e.2.type
      axisPasses e.2.length t.nominalL t.lowerL t.upperL = true
        ∧ (t.axes = .lengthRadius → axisPasses e.2.radius t.nominalR t.lowerR t.upperR = true)

end Sys2Proof.Machine
end

