-- ==== Sys2Proof/Certificates/Slice0/Obligations.lean ====
section
/-! DEFINITION. The statements for the provers, each with the rule of spec/ it comes from. `grants u` in a
conclusion is `u` up to what the two arbiters then put on the line, which GrantFollowsThePointer states; so an
equation that ends in `grants` gives every field of the next state, and a field that it does not name is
unchanged. -/

open Sys2Proof Sys2Proof.Machine

/-! ## The machine -/

/-- A command at the front of the queue is run on the state with the rest of the queue; an empty queue idles
(the model's choice, log 1). -/
def Obligations.StepRunsFrontCommand : Prop :=
  (∀ (i : Instr) (rest : List Instr) (s : State),
      step { s with pending := i :: rest } = exec i { s with pending := rest })
    ∧ ∀ s : State, s.pending = [] → step s = .next s

/-- Every command answers a next state in every state, and none touches the queue of waiting commands (00_scope.md
5.8, 95_what_each_step_holds.md). -/
def Obligations.EveryCommandCompletes : Prop :=
  ∀ (i : Instr) (s : State), ∃ t, exec i s = .next t ∧ t.pending = s.pending

/-- The state after power-on reset meets every invariant below (R23, R28, R33, R43, R57, R77, R101, R114, R119,
R138, R170, R173, R174, R185). -/
def Obligations.ResetIsLegal : Prop :=
  CountsInRange State.reset ∧ TablesCanonical State.reset ∧ StoresLegal State.reset ∧ HeadsLegal State.reset
    ∧ CapturesMatch State.reset ∧ TagsMatch State.reset ∧ PlacesMatch State.reset ∧ MagazinesHold State.reset
    ∧ TypesCounted State.reset ∧ MarksCounted State.reset ∧ WaitersDistinct State.reset
    ∧ SwitchesCounted State.reset ∧ PortsBusy State.reset ∧ InitialUnderReset State.reset
    ∧ PresetSound State.reset

/-- POWER_ON_RESET, PIN_RESET, RESET_PIN_RELEASE and KEY_LINE_CHANGE: the initial condition with the mode OPEN;
the same with LOCKED kept and the pin asserted; the pin released; the KEY level (R178, R179, R185). The levels
of the pins at power-on are the model's choice (log 7). -/
def Obligations.ResetsAndPins : Prop :=
  ∀ s : State,
    exec .powerOnReset s
        = .next { State.reset with pending := s.pending, key := s.key, resetPin := s.resetPin }
      ∧ exec .pinReset s
        = .next { State.reset with
            pending := s.pending, key := s.key, resetPin := true
            protection := if s.protection = .locked then .locked else .open_ }
      ∧ exec .resetPinRelease s = .next { s with resetPin := false }
      ∧ ∀ level : Bool, exec (.keyLineChange level) s = .next { s with key := level }

/-- While the RESET pin is asserted the part takes no frames and sends none: it stays in its initial condition,
whatever arrives at the crib port (R185) or, by the model's choice, at the hall port (log 6). -/
def Obligations.ResetPinHoldsInitialCondition : Prop :=
  ∀ s t : State, InitialUnderReset s → step s = .next t → InitialUnderReset t

/-! ## Frames and reception (sections 9.2 to 9.4) -/

/-- The check over 31h to 39h is 29B1h, and a receiver that runs the register over the covered bytes and then
two check bytes ends with 0 exactly when the check agrees (R158). -/
def Obligations.CheckAgreesExactlyAtZero : Prop :=
  checkOf [0x31, 0x32, 0x33, 0x34, 0x35, 0x36, 0x37, 0x38, 0x39] = 0x29B1
    ∧ ∀ (covered : List Byte) (a b : Byte),
        checkOf (covered ++ [a, b]) = 0 ↔ [a, b] = checkField covered

/-- Decoding the code and body of a well-formed listed request gives it back (R159, R176). With it the code of every
request (section 10.1) and the fields of its body in order, by the encodings of R159 that GrantFollowsThePointer spells;
the four EDIT actions are 1 to 4. The widths and the order of some body fields, the count byte of a bank body's list and
the presence bytes of an optional entry, place or reason are the model's reading of R159 (logs 9, 10 and 21). -/
def Obligations.RequestsDecodeFromTheirBodies : Prop :=
  (∀ (i : Instr) (code rt : Nat) (body : List Byte),
      i.wellFormed = true → listedRequest i = true → encodeRequest i = some (code, rt, body) →
        decodeRequest code rt body = some i)
    ∧ ∀ rt : Nat,
      let carries := fun (i : Instr) (code : Nat) (body : List Byte) => encodeRequest i = some (code, rt, body)
      let entry := fun e : EntryBody =>
        putI32 e.value ++ putU8 e.freshness ++ putU8 e.clamp ++ putU8 e.head ++ putU8 e.bank
      carries (.identify rt) 0x01 [] ∧ carries (.readStatus rt) 0x02 [] ∧ carries (.clearStatus rt) 0x03 []
        ∧ carries (.readCounters rt) 0x04 [] ∧ carries (.clearCounters rt) 0x05 []
        ∧ (∀ n b, carries (.writeType rt n b) 0x10
          (putU8 n ++ (putU8 b.defined ++ putU8 b.axes ++ putI32 b.nominalL ++ putI32 b.lowerL ++ putI32 b.upperL
            ++ putI32 b.nominalR ++ putI32 b.lowerR ++ putI32 b.upperR ++ putI32 b.band ++ putU16 b.lifeLimit
            ++ putI32 b.lengthWearLimit ++ putI32 b.radiusWearLimit ++ putU16 b.auditThreshold)))
        ∧ (∀ n, carries (.readType rt n) 0x11 (putU8 n))
        ∧ (∀ h bank b, carries (.writeCal rt h bank b) 0x20
          (putU8 h ++ putU8 bank
            ++ (putU8 b.count ++ putList (fun p => putI32 p.q ++ putI32 p.g) b.breakpoints ++ putU16 b.scaleNum
              ++ putU16 b.scaleDen ++ putI32 b.zero ++ putU16 b.alpha ++ putU16 b.refMin ++ putU16 b.refMax
              ++ putU8 b.depth)))
        ∧ (∀ h bank, carries (.readCal rt h bank) 0x21 (putU8 h ++ putU8 bank))
        ∧ (∀ h bank, carries (.switchCal rt h bank) 0x22 (putU8 h ++ putU8 bank))
        ∧ (∀ h, carries (.cancelCalSwitch rt h) 0x23 (putU8 h)) ∧ (∀ h, carries (.headRestore rt h) 0x24 (putU8 h))
        ∧ (∀ m b, carries (.defineMachine rt m b) 0x30
          (putU8 m ++ (putU8 b.defined ++ putU8 b.magazine ++ putU8 b.push)))
        ∧ (∀ m bank b, carries (.writeProfile rt m bank b) 0x31
          (putU8 m ++ putU8 bank
            ++ (putU8 b.count
              ++ putList (fun y => putU8 y.source ++ putU8 y.unit ++ putU8 y.width ++ putU8 y.negate
                  ++ putU8 y.blankZero) b.slots
              ++ putI32 b.offset)))
        ∧ (∀ m bank, carries (.readProfile rt m bank) 0x32 (putU8 m ++ putU8 bank))
        ∧ (∀ m bank, carries (.switchProfile rt m bank) 0x33 (putU8 m ++ putU8 bank))
        ∧ (∀ m, carries (.cancelProfileSwitch rt m) 0x34 (putU8 m))
        ∧ (∀ m, carries (.pauseHandoff rt m) 0x35 (putU8 m)) ∧ (∀ m, carries (.resumeHandoff rt m) 0x36 (putU8 m))
        ∧ (∀ m first count, carries (.readPockets rt m first count) 0x37 (putU8 m ++ putU8 first ++ putU8 count))
        ∧ (∀ n type tag, carries (.create rt n type tag) 0x40 (putU16 n ++ putU8 type ++ putOption 8 putTag tag))
        ∧ (∀ n b, carries (.restore rt n b) 0x41
          (putU16 n
            ++ (putU8 b.type ++ putOption 8 putTag b.tag ++ putOption 8 entry b.length ++ putOption 8 entry b.radius
              ++ putU16 b.lifeUsed ++ putI32 b.lengthWear ++ putI32 b.radiusWear ++ putU8 b.recheck
              ++ putOption 1 putU8 b.reason ++ putU8 b.target
              ++ putOption 2 (fun p => putU8 p.machine ++ putU8 p.pocket) b.location)))
        ∧ (∀ n type, carries (.changeType rt n type) 0x42 (putU16 n ++ putU8 1 ++ putU8 type))
        ∧ (∀ n tag, carries (.bindTag rt n tag) 0x42 (putU16 n ++ putU8 2 ++ putTag tag))
        ∧ (∀ n, carries (.unbindTag rt n) 0x42 (putU16 n ++ putU8 3))
        ∧ (∀ n, carries (.rebuild rt n) 0x42 (putU16 n ++ putU8 4)) ∧ (∀ n, carries (.delete rt n) 0x43 (putU16 n))
        ∧ (∀ start count, carries (.readAssemblies rt start count) 0x44 (putU16 start ++ putU8 count))
        ∧ (∀ n, carries (.forceReturn rt n) 0x45 (putU16 n))
        ∧ (∀ w b, carries (.writeHolds rt w b) 0x50
          (putU8 w ++ (putU8 b.enabled ++ putU16 b.base ++ putU8 b.exponent ++ putU8 b.complement)))
        ∧ (∀ v, carries (.seedAudit rt v) 0x51 (putU16 v))
        ∧ carries (.sweepSuspend rt) 0x60 [] ∧ carries (.sweepResume rt) 0x61 []
        ∧ (∀ mode, carries (.setProtection rt mode) 0x70 (putU8 mode)) ∧ carries (.lineReset rt) 0x71 []
        ∧ requestCodes = [1, 2, 3, 4, 5] ++ [0x10, 0x11] ++ [0x20, 0x21, 0x22, 0x23, 0x24]
          ++ List.range' 0x30 8 ++ List.range' 0x40 6 ++ [0x50, 0x51, 0x60, 0x61, 0x70, 0x71]

/-- The frame that carries a well-formed command passes every stage of reception as that command (R160 to R164); for a
hall frame of a machine, when that machine is defined. With it each frame's port, nodes, kind and payload, the fields in
the order of section 9.3 (R157 to R159): GAUGE from the nodes 2 to 5 of the heads, TAG from the nodes 6 to 9 of the
counters, MGMT from node 1 with code, tag and body. The layouts of some MGMT bodies are the model's reading of R159
(logs 9, 10 and 21). -/
def Obligations.FramesDecodeToTheirCommands : Prop :=
  (∀ (i : Instr) (port : Port) (bytes : Frame) (machineDefined : Nat → Bool),
      i.wellFormed = true → encodeFrame i = some (port, bytes) →
        (∀ m p, i = .dataRequest m p → machineDefined m = true) →
        (∀ m u, i = .usage m u → machineDefined m = true) →
          arrivalOf machineDefined port bytes = .command i)
    ∧ (let gauge := fun (kind : Nat) (g : GaugeFrame) =>
        putU8 kind ++ putU8 g.axis ++ putU8 g.gating ++ putBool g.overflow ++ putI32 g.scale ++ putU16 g.sensor
          ++ putU16 g.reference ++ putU8 g.temperature
      (∀ (h : Fin 4) g tag,
          encodeFrame (.contact h g tag) = some (.crib, buildFrame .crib 0 .crib (2 + h) 0x01 (gauge 0 g ++ putTag tag)))
        ∧ (∀ (h : Fin 4) g, encodeFrame (.sample h g) = some (.crib, buildFrame .crib 0 .crib (2 + h) 0x01 (gauge 1 g)))
        ∧ (∀ (h : Fin 4) g, encodeFrame (.release h g) = some (.crib, buildFrame .crib 0 .crib (2 + h) 0x01 (gauge 2 g)))
        ∧ (∀ (c : Fin 4) tag m p,
          encodeFrame (.issue c tag m p)
            = some (.crib, buildFrame .crib 0 .crib (6 + c) 0x02 (putU8 1 ++ putTag tag ++ putU8 m ++ putU8 p)))
        ∧ (∀ (c : Fin 4) tag,
          encodeFrame (.returnHolder c tag)
            = some (.crib, buildFrame .crib 0 .crib (6 + c) 0x02 (putU8 2 ++ putTag tag)))
        ∧ (∀ m p, encodeFrame (.dataRequest m p) = some (.hall, buildFrame .hall 0 .hall m 0x07 (putU8 p)))
        ∧ (∀ m u, encodeFrame (.usage m u)
          = some (.hall, buildFrame .hall 0 .hall m 0x09
              (putU8 u.pocket ++ putU16 u.assembly ++ putU16 u.minutes ++ putI32 u.lengthWear ++ putI32 u.radiusWear
                ++ putBool u.broken)))
        ∧ (∀ dst src payload,
          encodeFrame (.general .crib dst src payload) = some (.crib, buildFrame .hall dst .crib src 0x0F payload)
            ∧ encodeFrame (.general .hall dst src payload) = some (.hall, buildFrame .crib dst .hall src 0x0F payload))
        ∧ (∀ m src payload,
          encodeFrame (.toolData m src payload) = some (.crib, buildFrame .hall m .crib src 0x08 payload))
        ∧ ∀ i code rt body, listedRequest i = true → encodeRequest i = some (code, rt, body) →
          encodeFrame i = some (.crib, buildFrame .crib 0 .crib 1 0x04 (putU8 code ++ putU8 rt ++ body)))

/-- The arrival of the frame that carries a well-formed command completes as that command, whole in one event or in
two pieces: the first is kept in the port's receive state and changes nothing else, and the frame arrives with the
last (R160, R165). By the model's choice a piece of a frame is an event of the row FRAME_ARRIVAL (log 14), and the row
of a DATA_REQUEST or USAGE of a machine that is not defined meets the source check as its frame does (log 16), so the
equality holds for it too. The frames are those of FramesDecodeToTheirCommands: the layouts of some MGMT bodies are the
model's reading of R159 (logs 9, 10 and 21). -/
def Obligations.FrameArrivalRunsItsCommand : Prop :=
  ∀ (i : Instr) (port : Port) (frame : Frame) (s : State),
    i.wellFormed = true → encodeFrame i = some (port, frame) → (portAt s port).receiving = [] →
      (∃ t, exec (.frameArrival port ⟨frame, true⟩) s = .next t ∧ exec i s = .next t)
        ∧ ∀ first last : List Byte, s.resetPin = false → frame = first ++ last →
          let part := putPort port { portAt s port with receiving := first } s
          exec (.frameArrival port ⟨first, false⟩) s = .next part
            ∧ ∃ t, exec (.frameArrival port ⟨last, true⟩) part = .next t ∧ exec i s = .next t

/-- What reception makes of a frame that no consumer gets. Bytes with no start delimiter, none being in reception,
have no effect (R165). A frame that fails a stage changes one counter of its port and local traffic none: fewer than 7
bytes or a wrong check, a check error (R160); a length field above 240 or not of the payload received, header bits 6 or
5, the other segment as source, an unknown kind, malformed (R161); toward the other segment any kind but GENERAL and
crib TOOL_DATA, and for the TH4 a kind the port does not take, kind refused (R162, R163); a node from which the kind is
not taken, source refused (R163); a payload of no form of its kind, malformed (R164). That a piece of a frame is an
event of this row is the model's choice (log 14). -/
def Obligations.DroppedFramesAreCounted : Prop :=
  (∀ (port : Port) (s : State) (bytes : List Byte) (ended : Bool),
      (portAt s port).receiving = [] → 0xA5 ∉ bytes → exec (.frameArrival port ⟨bytes, ended⟩) s = .next s)
    ∧ (∀ (port : Port) (s : State) (piece frame : List Byte), s.resetPin = false →
      frame = (portAt s port).receiving ++ piece →
      ((portAt s port).receiving ≠ [] ∨ piece.head? = some 0xA5) →
        (∀ c, arrivalOf (machineDefined s) port frame = .counted c →
            let x := portAt s port
            let counted : PortState :=
              if c = .checkError then { x with receiving := [], checkError := min (x.checkError + 1) 65535 }
              else if c = .malformed then { x with receiving := [], malformed := min (x.malformed + 1) 65535 }
              else if c = .sourceRefused then { x with receiving := [], sourceRefused := min (x.sourceRefused + 1) 65535 }
              else { x with receiving := [], kindRefused := min (x.kindRefused + 1) 65535 }
            exec (.frameArrival port ⟨piece, true⟩) s = .next (grants (putPort port counted s)))
          ∧ (arrivalOf (machineDefined s) port frame = .ignored →
            exec (.frameArrival port ⟨piece, true⟩) s = .next (grants (heard port s))))
    ∧ (∀ (defined : Nat → Bool) (port : Port) (bytes : Frame),
      (bytes.length < 7 → arrivalOf defined port bytes = .counted .checkError)
        ∧ ∀ (d a b : Byte) (covered : List Byte), bytes = d :: covered ++ [a, b] → [a, b] ≠ checkField covered →
          arrivalOf defined port bytes = .counted .checkError)
    ∧ ∀ (defined : Nat → Bool) (port : Port) (dst src kind len : Byte) (payload : List Byte),
      let covered := dst :: src :: kind :: len :: payload
      let outcome := arrivalOf defined port (0xA5 :: covered ++ checkField covered)
      let node := fun b : Byte => b.toNat % 32
      let onHall := fun b : Byte => decide (128 ≤ b.toNat)
      let header := len.toNat ≤ 240 ∧ payload.length = len.toNat ∧ dst.toNat % 128 < 32 ∧ src.toNat % 128 < 32
        ∧ onHall src = decide (port = .hall) ∧ kind.toNat ∈ [1, 2, 3, 4, 5, 6, 7, 8, 9, 15]
      let first := payload.head?.map (·.toNat)
      (¬header → outcome = .counted .malformed)
        ∧ (header → node dst ≠ 0 → onHall dst = decide (port = .hall) → outcome = .ignored)
        ∧ (header → node dst ≠ 0 → onHall dst ≠ decide (port = .hall) →
          ((kind.toNat = 15 → outcome = .command (.general port (node dst) (node src) payload))
            ∧ (port = .crib → kind.toNat = 8 → outcome = .command (.toolData (node dst) (node src) payload))
            ∧ (kind.toNat ≠ 15 → ¬(port = .crib ∧ kind.toNat = 8) → outcome = .counted .kindRefused)))
        ∧ (header → node dst = 0 →
          ((port = .crib → kind.toNat ≠ 1 → kind.toNat ≠ 2 → kind.toNat ≠ 4 → outcome = .counted .kindRefused)
            ∧ (port = .hall → kind.toNat ≠ 7 → kind.toNat ≠ 9 → outcome = .counted .kindRefused)
            ∧ (port = .crib → kind.toNat = 1 → ¬(2 ≤ node src ∧ node src ≤ 5) → outcome = .counted .sourceRefused)
            ∧ (port = .crib → kind.toNat = 2 → ¬(6 ≤ node src ∧ node src ≤ 9) → outcome = .counted .sourceRefused)
            ∧ (port = .crib → kind.toNat = 4 → node src ≠ 1 → outcome = .counted .sourceRefused)
            ∧ (port = .hall → (kind.toNat = 7 ∨ kind.toNat = 9) → defined (node src) = false →
              outcome = .counted .sourceRefused)
            ∧ (port = .crib → kind.toNat = 1 → 2 ≤ node src → node src ≤ 5 →
              ¬(first = some 0 ∧ payload.length = 21) →
              ¬((first = some 1 ∨ first = some 2) ∧ payload.length = 13) → outcome = .counted .malformed)
            ∧ (port = .crib → kind.toNat = 2 → 6 ≤ node src → node src ≤ 9 →
              ¬(first = some 1 ∧ payload.length = 11) → ¬(first = some 2 ∧ payload.length = 9) →
              outcome = .counted .malformed)
            ∧ (port = .crib → kind.toNat = 4 → node src = 1 → payload.length < 2 → outcome = .counted .malformed)
            ∧ (port = .hall → kind.toNat = 7 → defined (node src) = true →
              ¬(payload.length = 1 ∧ ∃ p, first = some p ∧ 1 ≤ p ∧ p ≤ 240) → outcome = .counted .malformed)
            ∧ (port = .hall → kind.toNat = 9 → defined (node src) = true → payload.length ≠ 14 →
              outcome = .counted .malformed)))

/-! ## Transit, guard and egress (sections 9.5 and 9.6) -/

/-- A GENERAL frame enters the transit FIFO toward the other segment, unchanged in every byte, or is dropped and
counted on its own port when the FIFO holds 8 (R166). -/
def Obligations.GeneralEntersOrIsDropped : Prop :=
  ∀ (s : State) (dst src : Nat) (payload : List Byte), s.resetPin = false →
    (s.hallTransit.length < 8 →
        exec (.general .crib dst src payload) s = .next (grants
          { heard .crib s with hallTransit := s.hallTransit ++ [buildFrame .hall dst .crib src 0x0F payload] }))
      ∧ (s.cribTransit.length < 8 →
        exec (.general .hall dst src payload) s = .next (grants
          { heard .hall s with cribTransit := s.cribTransit ++ [buildFrame .crib dst .hall src 0x0F payload] }))
      ∧ (8 ≤ s.hallTransit.length →
        exec (.general .crib dst src payload) s = .next (grants
          { s with crib := { s.crib with receiving := [], transitDropped := tally s.crib.transitDropped } }))
      ∧ (8 ≤ s.cribTransit.length →
        exec (.general .hall dst src payload) s = .next (grants
          { s with hall := { s.hall with receiving := [], transitDropped := tally s.hall.transitDropped } }))

/-- A crib TOOL_DATA frame whose payload fails the check of R167 is malformed. One that passes it (its status 0 EMPTY, 1
NO_PROFILE, 2 LOCKED or 3 SERVED, R159) enters the hall-transit FIFO or, when that holds 8, is dropped and counted on
the crib port; or it is blocked: dropped, counted and reported with what it carried and what stands at the pocket. The
issue map and the state of the assembly at the pocket decide (R166, R167, R168). An assembly at the pocket that has no
record, which no run reaches, is reported without a state by the model's choice (log 19). -/
def Obligations.GuardPassesOrBlocks : Prop :=
  (∀ (payload : List Byte) (v : GuardView), guardView? payload = some v ↔
      ∃ pocket status hi lo bank slots rest, payload = pocket :: status :: hi :: lo :: bank :: slots :: rest
        ∧ v.pocket = pocket.toNat ∧ toolStatusCode v.status = status.toNat
        ∧ v.assembly = hi.toNat * 256 + lo.toNat
        ∧ status.toNat ≤ 3 ∧ 1 ≤ v.pocket ∧ v.pocket ≤ 240 ∧ v.assembly ≤ 1023 ∧ bank.toNat ≤ 1
        ∧ slots.toNat ≤ 12 ∧ payload.length = 6 + 5 * slots.toNat)
    ∧ [ToolStatus.empty, .noProfile, .locked, .served].map toolStatusCode = [0, 1, 2, 3]
    ∧ ∀ (s : State) (m src : Nat) (payload : List Byte), s.resetPin = false →
      (guardView? payload = none →
          exec (.toolData m src payload) s = .next (grants
            { s with crib := { s.crib with receiving := [], malformed := tally s.crib.malformed } }))
        ∧ ∀ v : GuardView, guardView? payload = some v →
          let here := occupant s ⟨m, v.pocket⟩
          let withdrawn := (recordAt s v.assembly).any fun r => r.state = .withdrawn
          let passes := (v.status = .served ∧ here = some v.assembly ∧ withdrawn = false)
            ∨ (v.status = .locked ∧ here = some v.assembly) ∨ (v.status = .empty ∧ here = none)
          let named := if v.status = .served ∨ v.status = .locked then some v.assembly else none
          let blocked := fun reason => notify
            (.transitBlocked src m v.pocket (toolStatusCode v.status) named here
              ((here.bind (recordAt s)).map (·.state)) reason)
            { heard .crib s with guardBlocked := tally s.guardBlocked }
          (passes → s.hallTransit.length < 8 →
              exec (.toolData m src payload) s = .next (grants
                { heard .crib s with
                  hallTransit := s.hallTransit ++ [buildFrame .hall m .crib src 0x08 payload] }))
            ∧ (passes → 8 ≤ s.hallTransit.length →
              exec (.toolData m src payload) s = .next (grants
                { s with
                  crib := { s.crib with receiving := [], transitDropped := tally s.crib.transitDropped } }))
            ∧ ((v.status = .served ∨ v.status = .locked) → here ≠ some v.assembly →
              exec (.toolData m src payload) s = .next (grants (blocked .notAtPocket)))
            ∧ (v.status = .served → here = some v.assembly → withdrawn = true →
              exec (.toolData m src payload) s = .next (grants (blocked .withdrawnNotLocked)))
            ∧ (v.status = .empty → here ≠ none →
              exec (.toolData m src payload) s = .next (grants (blocked .pocketNotEmpty)))
            ∧ (v.status = .noProfile →
              exec (.toolData m src payload) s = .next (grants (blocked .statusRefused)))

/-- A completion removes the granted frame from its source and leaves the port to its next grant; a completed
SERVED frame whose void mark is clear brings an assembly that is ISSUED at the frame's place into service, and no
other completed frame changes an assembly (R146, R166, R172). -/
def Obligations.CompletionFreesItsSource : Prop :=
  (∀ (s : State) (f : Frame), s.cribEgress.sending = some (.transit, f) →
      exec (.transmissionCompletion .crib) s = .next (grants
        { s with cribTransit := s.cribTransit.tail, cribEgress := { s.cribEgress with sending := none } }))
    ∧ (∀ (s : State) (f : Frame), s.cribEgress.sending = some (.answer, f) →
      exec (.transmissionCompletion .crib) s = .next (grants
        { s with answers := s.answers.tail, cribEgress := { s.cribEgress with sending := none } }))
    ∧ (∀ (s : State) (f : Frame), s.cribEgress.sending = some (.notice, f) →
      exec (.transmissionCompletion .crib) s = .next (grants
        { s with notices := s.notices.tail, cribEgress := { s.cribEgress with sending := none } }))
    ∧ (∀ (s : State) (f : Frame), s.hallEgress.sending = some (.transit, f) →
      exec (.transmissionCompletion .hall) s = .next (grants
        { s with hallTransit := s.hallTransit.tail, hallEgress := { s.hallEgress with sending := none } }))
    ∧ (∀ (s : State) (f : Frame) (front : HandoffFrame) (rest : List HandoffFrame),
      s.hallEgress.sending = some (.handoff, f) → s.handoff = front :: rest →
      (∀ (n : Nat) (bank : Bank) (slots : List SentSlot) (r : Assembly),
        front.content = .served n bank slots → front.void = false → recordAt s n = some r → r.state = .issued →
        r.location = some ⟨front.machine, front.pocket⟩ →
          exec (.transmissionCompletion .hall) s = .next (grants
            { s with
              handoff := rest, hallEgress := { s.hallEgress with sending := none }
              assemblies := tableSet s.assemblies n { r with state := .inService } }))
      ∧ ((∀ (n : Nat) (bank : Bank) (slots : List SentSlot) (r : Assembly),
          front.content = .served n bank slots → recordAt s n = some r →
            front.void = true ∨ r.state ≠ .issued ∨ r.location ≠ some ⟨front.machine, front.pocket⟩) →
          exec (.transmissionCompletion .hall) s = .next (grants
            { s with handoff := rest, hallEgress := { s.hallEgress with sending := none } })))

/-- A grant: none while a transmission is in progress or no source holds a frame; else the oldest frame of the
first source at or after the pointer in cyclic order that holds one, and the pointer goes to the source after
it. Nothing but the arbiter changes (R170, R171). The cyclic orders; after an event the crib port grants before the hall
port, by the model's choice (log 5). With it the bytes of every frame that the part originates: the encodings of R159,
the layout of section 9.2, source node 0 and the destinations of R157, the 27 bytes of an ISSUE_ANSWER, the headers of
an MGMT_REPLY with its table generation (R176) and of a NOTICE (R187), and the payload of a TOOL_DATA frame (R145).
The reply bodies of the requests that write are those that each one's rule names, by the model's reading of R159 (logs
9, 10, 21 and 25). NoticeEntersOrIsCounted gives the bodies of the notices, ReadsReplyAndChangeNothing those of the read
replies. -/
def Obligations.GrantFollowsThePointer : Prop :=
  (∀ s : State,
    (s.cribEgress.sending ≠ none → grantCrib s = s)
      ∧ (s.cribTransit = [] → s.answers = [] → s.notices = [] → grantCrib s = s)
      ∧ (∀ (src : CribSource) (f : Frame), s.cribEgress.sending = none → cribFront s src = some f →
          (src = s.cribEgress.pointer
            ∨ (cribFront s s.cribEgress.pointer = none ∧ src = nextCribSource s.cribEgress.pointer)
            ∨ (cribFront s s.cribEgress.pointer = none
                ∧ cribFront s (nextCribSource s.cribEgress.pointer) = none
                ∧ src = nextCribSource (nextCribSource s.cribEgress.pointer))) →
          grantCrib s = { s with cribEgress := { sending := some (src, f), pointer := nextCribSource src } })
      ∧ (s.hallEgress.sending ≠ none → grantHall s = s)
      ∧ (s.hallTransit = [] → s.handoff = [] → grantHall s = s)
      ∧ (∀ (src : HallSource) (f : Frame), s.hallEgress.sending = none → hallFront s src = some f →
          (src = s.hallEgress.pointer
            ∨ (hallFront s s.hallEgress.pointer = none ∧ src = nextHallSource s.hallEgress.pointer)) →
          grantHall s = { s with hallEgress := { sending := some (src, f), pointer := nextHallSource src } })
      ∧ grants s = grantHall (grantCrib s)
      ∧ cribFront s .transit = s.cribTransit.head? ∧ cribFront s .answer = s.answers.head?.map answerFrame
      ∧ cribFront s .notice = s.notices.head?.map noticeFrame ∧ hallFront s .transit = s.hallTransit.head?
      ∧ hallFront s .handoff = s.handoff.head?.map handoffFrame)
    ∧ (nextCribSource .transit = .answer ∧ nextCribSource .answer = .notice ∧ nextCribSource .notice = .transit
      ∧ nextHallSource .transit = .handoff ∧ nextHallSource .handoff = .transit)
    ∧ ((∀ n, putU8 n = [BitVec.ofNat 8 n]) ∧ (∀ n, putU16 n = putU8 (n / 256) ++ putU8 n)
      ∧ (∀ x : Int, putI32 x = putU16 ((x % 4294967296).toNat / 65536) ++ putU16 (x % 4294967296).toNat)
      ∧ (∀ t : Tag, putTag t = putI32 (t.toNat / 4294967296 : Nat) ++ putI32 t.toNat)
      ∧ (∀ b : Bool, putBool b = putU8 (if b then 1 else 0))
      ∧ (∀ p : Place, putPlace p = putU8 p.machine ++ putU8 p.pocket)
      ∧ (∀ (α : Type) (size : Nat) (put : α → List Byte) (a : α),
        putOption size put (some a) = putU8 1 ++ put a ∧ putOption size put none = putU8 0 ++ List.replicate size 0)
      ∧ ∀ (α : Type) (put : α → List Byte) (xs : List α), putList put xs = putU8 xs.length ++ xs.flatMap put)
    ∧ (∀ (dstSeg srcSeg : Port) (dst src kind : Nat) (payload : List Byte),
      let flag := fun p : Port => if p = .hall then 128 else 0
      let covered := putU8 (flag dstSeg + dst) ++ putU8 (flag srcSeg + src) ++ putU8 kind ++ putU8 payload.length
        ++ payload
      buildFrame dstSeg dst srcSeg src kind payload = 0xA5 :: covered ++ checkField covered)
    ∧ ([AnswerStatus.granted, .unknownTag, .held, .notReady, .lifeSpent, .unknownMachine, .badPocket, .pocketOccupied,
          .returnedPreset, .returnedRemeasure, .returnedRetired, .notIssued].map answerStatusCode
        = [0x00, 0x01, 0x02, 0x03, 0x04, 0x05, 0x06, 0x07, 0x10, 0x11, 0x12, 0x13]
      ∧ [Status.ok, .noChange, .busy, .protected_, .locked, .badIndex, .invalidTable, .state, .redundant, .activeBank,
          .tagInUse, .unknownRequest].map statusCode = List.range 12
      ∧ [AsmState.built, .measuring, .partly, .preset, .rejected, .remeasure, .issued, .inService, .withdrawn,
          .retired].map asmStateCode = List.range 10
      ∧ [Reason.break_, .life, .wear].map reasonCode = [1, 2, 3] ∧ [Bank.bankA, .bankB].map bankCode = [0, 1]
      ∧ [TagAction.issue, .return_].map tagActionCode = [1, 2])
    ∧ (∀ (c : Fin 4) (a : IssueAnswer),
      let weight := fun (w : Nat) (holds : Bool) => if holds then w else 0
      let presence := weight 1 a.assembly.isSome + weight 2 a.place.isSome + weight 4 a.actual.isSome
        + weight 8 a.location.isSome + weight 16 a.life.isSome + weight 32 a.occupying.isSome
        + weight 64 a.reason.isSome + weight 128 a.draw.isSome
      let payload := putU8 (tagActionCode a.action) ++ putTag a.tag ++ putU8 (answerStatusCode a.status)
        ++ putU8 presence ++ putU16 (a.assembly.getD 0) ++ putPlace (a.place.getD ⟨0, 0⟩)
        ++ putU8 ((a.actual.map asmStateCode).getD 0) ++ putPlace (a.location.getD ⟨0, 0⟩)
        ++ putU16 (a.life.getD (0, 0)).1 ++ putU16 (a.life.getD (0, 0)).2 ++ putU16 (a.occupying.getD 0)
        ++ putU8 ((a.reason.map reasonCode).getD 0) ++ putU16 (a.draw.getD 0)
      payload.length = 27 ∧ answerFrame (.issueAnswer c a) = buildFrame .crib (6 + c) .crib 0 0x03 payload)
    ∧ (∀ (code rt : Nat) (status : Status) (generation : Nat) (body : ReplyBody),
      answerFrame (.reply code rt status generation body)
        = buildFrame .crib 1 .crib 0 0x05
            (putU8 code ++ putU8 rt ++ putU8 (statusCode status) ++ putU16 generation ++ putReplyBody body))
    ∧ (putReplyBody .none = [] ∧ (∀ type, putReplyBody (.typeNumber type) = putU8 type)
      ∧ (∀ number, putReplyBody (.assembly number) = putU16 number)
      ∧ (∀ number state, putReplyBody (.assemblyState number state) = putU16 number ++ putU8 (asmStateCode state))
      ∧ (∀ value, putReplyBody (.audit value) = putU16 value)
      ∧ (∀ mode, putReplyBody (.protection mode) = putU8 (protectionCode mode))
      ∧ (∀ state cursor marks,
        putReplyBody (.sweep state cursor marks) = putU8 (sweepStateCode state) ++ putU16 cursor ++ putU16 marks)
      ∧ (∀ windows : List HoldWindow,
        putReplyBody (.windows windows)
          = windows.flatMap fun w => putBool w.enabled ++ putU16 w.base ++ putU8 w.exponent ++ putBool w.complement)
      ∧ (∀ number place draw outcome state reason,
        putReplyBody (.forcedReturn number place draw outcome state reason)
          = putU16 number ++ putPlace place ++ putU16 draw ++ putU8 (answerStatusCode outcome)
            ++ putU8 (asmStateCode state) ++ putOption 1 (fun x => putU8 (reasonCode x)) reason)
      ∧ (∀ head bank reason active state,
        putReplyBody (.calWritten head bank reason active state)
          = putU8 head ++ putU8 (bankCode bank) ++ putBool reason.isNone ++ putU8 (calReasonCode reason)
            ++ putBool active ++ putU8 (headStateCode state))
      ∧ (∀ reason, putReplyBody (.calInvalid reason) = putU8 (calReasonCode (some reason)))
      ∧ (∀ active state,
        putReplyBody (.calSwitched active state) = putU8 (bankCode active) ++ putU8 (headStateCode state))
      ∧ (∀ target active, putReplyBody (.calPending target active) = putU8 (bankCode target) ++ putU8 (bankCode active))
      ∧ (∀ bank, putReplyBody (.redundant bank) = putOption 1 (fun x => putU8 (bankCode x)) bank)
      ∧ (∀ target, putReplyBody (.cancelled target) = putU8 (bankCode target))
      ∧ (∀ head state, putReplyBody (.headRestored head state) = putU8 head ++ putU8 (headStateCode state))
      ∧ (∀ defined magazine push,
        putReplyBody (.definition defined magazine push) = putBool defined ++ putU8 magazine ++ putBool push)
      ∧ (∀ reason active,
        putReplyBody (.profileWritten reason active) = putBool reason.isNone ++ putProfileReason reason ++ putBool active)
      ∧ (∀ reason, putReplyBody (.profileInvalid reason) = putProfileReason (some reason))
      ∧ (∀ active, putReplyBody (.profileSwitched active) = putU8 (bankCode active))
      ∧ (∀ target marked active,
        putReplyBody (.profilePending target marked active)
          = putU8 (bankCode target) ++ putU8 marked ++ putU8 (bankCode active))
      ∧ ∀ machine paused waiting,
        putReplyBody (.handoffPaused machine paused waiting) = putU8 machine ++ putBool paused ++ putU8 waiting)
    ∧ (∀ n : Notice,
      noticeFrame n
        = buildFrame .crib 1 .crib 0 0x06
            (putU8 (putNoticeBody n.body).1 ++ putU8 n.before ++ (putNoticeBody n.body).2))
    ∧ ∀ f : HandoffFrame,
      let sent := fun (status assembly bank : Nat) (slots : List SentSlot) =>
        putU8 f.pocket ++ putU8 status ++ putU16 assembly ++ putU8 bank ++ putU8 slots.length
          ++ slots.flatMap fun y =>
            putU8 (y.width % 16 + (if y.saturated then 16 else 0) + (if y.blank then 32 else 0)
              + (if y.absent then 64 else 0)) ++ putI32 y.value
      let carries := fun payload : List Byte => handoffFrame f = buildFrame .hall f.machine .hall 0 0x08 payload
      (f.content = .empty → carries (sent 0 0 0 [])) ∧ (f.content = .noProfile → carries (sent 1 0 0 []))
        ∧ (∀ n bank slots, f.content = .locked n bank slots → carries (sent 2 n (bankCode bank) slots))
        ∧ ∀ n bank slots, f.content = .served n bank slots → carries (sent 3 n (bankCode bank) slots)

/-- At every step each port sends exactly while one of its sources holds a frame, and what it sends is the oldest
frame of the granted source, unchanged since its grant (R171, R172). -/
def Obligations.PortsStayBusy : Prop :=
  ∀ s t : State, PortsBusy s → step s = .next t → PortsBusy t

/-- A notice enters at the end with the discarded-notice count, which returns to 0; at 24 notices it is discarded and
counted up to 255 (R186). The kind code and the body of each notice, its fields in the order of the rule that gives
them, by the codes and encodings of section 9.3; the widths and order that R159 leaves to be read are the model's
reading (logs 10 and 21) (R35, R52, R67, R92, R116, R136, R140, R150, R153, R159, R168). -/
def Obligations.NoticeEntersOrIsCounted : Prop :=
  (∀ (s : State) (body : NoticeBody),
    (s.notices.length < 24 →
        notify body s
          = { s with notices := s.notices ++ [⟨s.discardedNotices, body⟩], discardedNotices := 0 })
      ∧ (24 ≤ s.notices.length → s.discardedNotices < 255 →
        notify body s = { s with discardedNotices := s.discardedNotices + 1 })
      ∧ (24 ≤ s.notices.length → s.discardedNotices = 255 → notify body s = s))
    ∧ ([Axis.length, .radius].map axisCode = [0, 1]
      ∧ [Verdict.pass, .failLength, .failRadius, .clamped, .incomplete].map verdictCode = List.range 5
      ∧ [AbortReason.settleTimeout, .releasedEarly, .recontact, .referenceFault].map abortReasonCode = [1, 2, 3, 4]
      ∧ [RefusalReason.headNotReady, .unknownTag, .held, .busyElsewhere, .state, .axisNotRequired].map
          refusalReasonCode = [1, 2, 3, 4, 5, 6]
      ∧ [SampleKind.contact, .sample, .release].map sampleKindCode = [0, 1, 2]
      ∧ (∀ f, [HeadState.uncalibrated, .ready, .fault f].map headStateCode = [0, 1, 2])
      ∧ [Origin.dataRequest, .pushOnIssue, .withdrawal].map originCode = [0, 1, 2]
      ∧ [BlockReason.notAtPocket, .withdrawnNotLocked, .pocketNotEmpty, .statusRefused].map blockReasonCode
        = [1, 2, 3, 4])
    ∧ (∀ (head assembly : Nat) (axis : Axis) (value mean : Int) (clamp : Bool) (bank : Bank) (frames : Nat)
      (verdict : Verdict) (state : AsmState),
      putNoticeBody (.captureDone head assembly axis value mean clamp bank frames verdict state)
        = (1, putU8 head ++ putU16 assembly ++ putU8 (axisCode axis) ++ putI32 value ++ putI32 mean ++ putBool clamp
            ++ putU8 (bankCode bank) ++ putU8 frames ++ putU8 (verdictCode verdict) ++ putU8 (asmStateCode state)))
    ∧ (∀ (head assembly : Nat) (axis : Axis) (reason : AbortReason) (restored : AsmState) (frames entries : Nat),
      putNoticeBody (.captureAborted head assembly axis reason restored frames entries)
        = (2, putU8 head ++ putU16 assembly ++ putU8 (axisCode axis) ++ putU8 (abortReasonCode reason)
            ++ putU8 (asmStateCode restored) ++ putU8 frames ++ putU8 entries))
    ∧ (∀ (head : Nat) (reason : RefusalReason) (tag : Tag) (axis : Option Axis) (assembly : Option Nat)
      (state : Option AsmState) (holding : Option Nat),
      putNoticeBody (.contactRefused head reason tag axis assembly state holding)
        = (3, putU8 head ++ putU8 (refusalReasonCode reason) ++ putTag tag
            ++ putOption 1 (fun x => putU8 (axisCode x)) axis ++ putOption 2 putU16 assembly
            ++ putOption 1 (fun x => putU8 (asmStateCode x)) state ++ putOption 1 putU8 holding))
    ∧ (∀ (head count : Nat) (kind : SampleKind) (bank : Bank) (refMin refMax : Nat) (aborted : Option Nat)
      (cancelled : Option Bank),
      putNoticeBody (.headFault head count kind bank refMin refMax aborted cancelled)
        = (4, putU8 head ++ putU16 count ++ putU8 (sampleKindCode kind) ++ putU8 (bankCode bank) ++ putU16 refMin
            ++ putU16 refMax ++ putOption 2 putU16 aborted ++ putOption 1 (fun x => putU8 (bankCode x)) cancelled))
    ∧ (∀ (head : Nat) (new previous : Bank) (ended : Option Nat) (state : HeadState),
      putNoticeBody (.calSwitchDone head new previous ended state)
        = (5, putU8 0 ++ putU8 head ++ putU8 (bankCode new) ++ putU8 (bankCode previous)
            ++ putU8 (if ended = none then 0 else 1) ++ putOption 2 putU16 ended ++ putU8 (headStateCode state)))
    ∧ (∀ (machine : Nat) (new previous : Bank) (atDrain : Bool) (served : Nat),
      putNoticeBody (.profileSwitchDone machine new previous atDrain served)
        = (5, putU8 1 ++ putU8 machine ++ putU8 (bankCode new) ++ putU8 (bankCode previous)
            ++ putU8 (if atDrain then 2 else 0) ++ putU8 served))
    ∧ (∀ (head : Nat) (target : Bank),
      putNoticeBody (.calSwitchCancelled head target)
        = (6, putU8 0 ++ putU8 head ++ putU8 (bankCode target) ++ putU8 0))
    ∧ (∀ (machine : Nat) (target : Bank) (marks : Nat),
      putNoticeBody (.profileSwitchCancelled machine target marks)
        = (6, putU8 1 ++ putU8 machine ++ putU8 (bankCode target) ++ putU8 0 ++ putU8 marks))
    ∧ (∀ stepped otherwise : Nat,
      putNoticeBody (.sweepDone stepped otherwise) = (7, putU16 stepped ++ putU16 otherwise))
    ∧ (∀ (assembly type draw threshold : Nat) (place : Place) (counter : Option (Fin 4)),
      putNoticeBody (.auditSelected assembly type draw threshold place counter)
        = (8, putU16 assembly ++ putU8 type ++ putU16 draw ++ putU16 threshold ++ putPlace place
            ++ putU8 (if counter = none then 1 else 0) ++ putU8 ((counter.map (·.val)).getD 0)))
    ∧ (∀ (assembly type : Nat) (place : Place) (reason : Reason) (before : AsmState) (lifeUsed : Nat)
      (lengthWear radiusWear : Int) (lifeLimit : Nat) (lengthWearLimit radiusWearLimit : Int),
      putNoticeBody (.withdrawn assembly type place reason before lifeUsed lengthWear radiusWear lifeLimit
          lengthWearLimit radiusWearLimit)
        = (9, putU16 assembly ++ putU8 type ++ putPlace place ++ putU8 (reasonCode reason)
            ++ putU8 (asmStateCode before) ++ putU16 lifeUsed ++ putI32 lengthWear ++ putI32 radiusWear
            ++ putU16 lifeLimit ++ putI32 lengthWearLimit ++ putI32 radiusWearLimit))
    ∧ (∀ (machine pocket reported : Nat) (atPocket : Option Nat) (minutes : Nat) (lengthWear radiusWear : Int)
      (broken : Bool),
      putNoticeBody (.usageMismatch machine pocket reported atPocket minutes lengthWear radiusWear broken)
        = (10, putU8 machine ++ putU8 pocket ++ putU16 reported ++ putOption 2 putU16 atPocket ++ putU16 minutes
            ++ putI32 lengthWear ++ putI32 radiusWear ++ putBool broken))
    ∧ (∀ (sender machine pocket status : Nat) (named atPocket : Option Nat) (stateAt : Option AsmState)
      (reason : BlockReason),
      putNoticeBody (.transitBlocked sender machine pocket status named atPocket stateAt reason)
        = (11, putU8 sender ++ putU8 machine ++ putU8 pocket ++ putU8 status ++ putOption 2 putU16 named
            ++ putOption 2 putU16 atPocket ++ putOption 1 (fun x => putU8 (asmStateCode x)) stateAt
            ++ putU8 (blockReasonCode reason)))
    ∧ ∀ (machine pocket : Nat) (origin : Origin) (assembly : Option Nat),
      putNoticeBody (.requestDropped machine pocket origin assembly)
        = (12, putU8 machine ++ putU8 pocket ++ putU8 (originCode origin) ++ putOption 2 putU16 assembly)

/-! ## Management (chapter 10) -/

/-- The read requests answer what the tables hold when they are taken and change nothing else; a number, bank or count
outside its range is BAD_INDEX, with the generation alone by the model's choice (log 11) (R20, R29, R59, R102, R129,
R182, R183). READ_STATUS and READ_COUNTERS give the fields of R182 and R183 in order. READ_ASSEMBLIES examines slots
from the start number upward, 0 after 1023, copies the present records, and stops with the count or after 1,024 slots;
READ_POCKETS examines the pockets of its machine from the first upward, skips the empty ones, and stops with the count
or at pocket 240. A pocket whose assembly has no record, which no run reaches, is skipped too (model's choice, log 19).
With it the bytes of these replies' fields by R159: the widths and order that R159 leaves to be read, the two count
bytes of a bank and the bytes of IDENTIFY are the model's reading (logs 9, 10, 21 and 26). -/
def Obligations.ReadsReplyAndChangeNothing : Prop :=
  (∀ (s : State) (rt : Nat), RequestTaken s →
    let replied := fun (code : Nat) (body : ReplyBody) =>
      grants (answered (.reply code rt .ok s.generation body) s)
    exec (.identify rt) s = .next (replied 0x01 .identity)
      ∧ exec (.readStatus rt) s = .next (replied 0x02 (.status
          { heads := s.heads.toList.map fun x => ⟨x.status, x.active, x.pendingCal⟩
            slots := s.heads.toList.map fun x =>
              match x.slot with
              | .idle => ⟨0, none⟩
              | .armed c => ⟨1, some (c.assembly, c.axis, c.prior, c.bank, c.frames, c.history.length)⟩
              | .latched => ⟨2, none⟩
            sweep := s.sweep
            switches := (List.range 31).filterMap fun i =>
              (machineAt s (i + 1)).bind fun x => x.switch.map fun w => (i + 1, w.target, w.marked)
            protection := s.protection, key := s.key, protectionError := s.protectionError
            generation := s.generation
            queues := [s.cribTransit.length, s.hallTransit.length, s.answers.length, s.notices.length,
              s.waitList.length, s.handoff.length]
            discardedNotices := s.discardedNotices, audit := s.audit.toNat }))
      ∧ exec (.readCounters rt) s = .next (replied 0x04 (.counters
          ([s.crib.checkError, s.crib.malformed, s.crib.sourceRefused, s.crib.kindRefused, s.crib.transitDropped,
            s.hall.checkError, s.hall.malformed, s.hall.sourceRefused, s.hall.kindRefused, s.hall.transitDropped,
            s.guardBlocked] ++ s.heads.toList.map (·.gaugeDiscarded) ++ s.tagDropped.toList
            ++ [s.handoffDropped, s.usageMismatch, s.mgmtDropped])))
      ∧ (∀ n, n ≤ 127 → exec (.readType rt n) s = .next (replied 0x11 (.typeRecord n (typeAt s n))))
      ∧ (∀ (h : Fin 4) (b : Bank),
        let x := headAt s h
        let content := if b = .bankA then x.bankA else x.bankB
        exec (.readCal rt h (if b = .bankA then 0 else 1)) s
          = .next (replied 0x21 (.calBank h b content (calReason content) (x.active = b) x.pendingCal x.status)))
      ∧ (∀ (m : Nat) (b : Bank) (x : MachineDef), machineAt s m = some x →
        let content := if b = .bankA then x.bankA else x.bankB
        exec (.readProfile rt m (if b = .bankA then 0 else 1)) s
          = .next (replied 0x32
              (.profileBank m b content (profileReason content) (x.active = b) x.defined x.magazine x.push x.paused
                (x.switch.map fun w => (w.target, w.marked)))))
      ∧ (let outOfRange := fun code : Nat => .next (grants (answered (.reply code rt .badIndex s.generation .none) s))
        (∀ n, 127 < n → exec (.readType rt n) s = outOfRange 0x11)
          ∧ (∀ head code, 3 < head ∨ 1 < code → exec (.readCal rt head code) s = outOfRange 0x21)
          ∧ (∀ m code, m = 0 ∨ 31 < m ∨ 1 < code → exec (.readProfile rt m code) s = outOfRange 0x32)
          ∧ (∀ m first count, m = 0 ∨ 31 < m ∨ first = 0 ∨ 240 < first ∨ count = 0 ∨ 16 < count →
            exec (.readPockets rt m first count) s = outOfRange 0x37)
          ∧ ∀ start count, 1023 < start ∨ count = 0 ∨ 4 < count →
            exec (.readAssemblies rt start count) s = outOfRange 0x44)
      ∧ (∀ (m first count : Nat) (x : MachineDef), machineAt s m = some x → 1 ≤ first → first ≤ 240 → 1 ≤ count →
        count ≤ 16 →
        let found := fun examined : Nat => (List.range examined).filterMap fun i =>
          (occupant s ⟨m, first + i⟩).bind fun n => (recordAt s n).map fun r =>
            (⟨first + i, n, r.state, if r.state = .withdrawn then r.reason else none, r.recheck, isHeld s n⟩ :
              PocketReport)
        ∃ examined, first + examined ≤ 241 ∧ (∀ k < examined, (found k).length < count)
          ∧ ((found examined).length = count ∨ first + examined = 241)
          ∧ exec (.readPockets rt m first count) s
            = .next (replied 0x37
                (.pockets m x.defined (if x.defined then x.magazine else 0) examined
                  (if first + examined ≤ 240 then some (first + examined) else none) (found examined))))
      ∧ ∀ start count, start ≤ 1023 → 1 ≤ count → count ≤ 4 →
        let found := fun examined : Nat => (List.range examined).filterMap fun i =>
          let n := (start + i) % 1024
          (recordAt s n).map fun r => (⟨n, r, isHeld s n⟩ : CopiedRecord)
        ∃ examined, examined ≤ 1024 ∧ (∀ k < examined, (found k).length < count)
          ∧ ((found examined).length = count ∨ examined = 1024)
          ∧ exec (.readAssemblies rt start count) s
            = .next (replied 0x44
                (.assemblies examined ((start + examined) % 1024) s.holds.toList (found examined))))
    ∧ (putReplyBody .identity = [0x55, 0x43, 1, 3]
      ∧ (∀ r : StatusReport,
        let recorded := fun x : HeadState =>
          match x with
          | .fault f => some f
          | _ => none
        putReplyBody (.status r)
          = r.heads.flatMap (fun x => putU8 (headStateCode x.status) ++ putU8 (bankCode x.active)
              ++ putOption 1 (fun y => putU8 (bankCode y)) x.pendingCal
              ++ putOption 4 (fun f => putU16 f.count ++ putU8 (sampleKindCode f.kind) ++ putU8 (bankCode f.bank))
                  (recorded x.status))
            ++ r.slots.flatMap (fun x => putU8 x.state
              ++ putOption 7 (fun (c : Nat × Axis × AsmState × Bank × Nat × Nat) =>
                putU16 c.1 ++ putU8 (axisCode c.2.1) ++ putU8 (asmStateCode c.2.2.1) ++ putU8 (bankCode c.2.2.2.1)
                  ++ putU8 c.2.2.2.2.1 ++ putU8 c.2.2.2.2.2) x.capture)
            ++ putU8 (sweepStateCode r.sweep.state) ++ putU16 r.sweep.cursor ++ putU16 r.sweep.marks
            ++ putU16 r.sweep.stepped ++ putU16 r.sweep.otherwise
            ++ putList (fun x => putU8 x.1 ++ putU8 (bankCode x.2.1) ++ putU8 x.2.2) r.switches
            ++ putU8 (protectionCode r.protection) ++ putBool r.key ++ putBool r.protectionError
            ++ putU16 r.generation ++ r.queues.flatMap putU8 ++ putU8 r.discardedNotices ++ putU16 r.audit)
      ∧ [SweepState.idle, .running, .suspended].map sweepStateCode = [0, 1, 2]
      ∧ [Protection.open_, .keyed, .locked].map protectionCode = [0, 1, 2]
      ∧ (∀ values, putReplyBody (.counters values) = values.flatMap putU16)
      ∧ (∀ (n : Nat) (t : TypeRecord),
        putReplyBody (.typeRecord n t)
          = putU8 n ++ putBool t.defined ++ putU8 (if t.axes = .length then 0 else 1) ++ putI32 t.nominalL
            ++ putI32 t.lowerL ++ putI32 t.upperL ++ putI32 t.nominalR ++ putI32 t.lowerR ++ putI32 t.upperR
            ++ putI32 t.band ++ putU16 t.lifeLimit ++ putI32 t.lengthWearLimit ++ putI32 t.radiusWearLimit
            ++ putU16 t.auditThreshold ++ putU16 t.inUse)
      ∧ (∀ (h : Nat) (bank : Bank) (b : CalBank) (reason : Option CalReason) (active : Bool) (pending : Option Bank)
        (state : HeadState),
        putReplyBody (.calBank h bank b reason active pending state)
          = putU8 h ++ putU8 (bankCode bank) ++ putU8 b.breakpoints.length
            ++ putList (fun p => putI32 p.q ++ putI32 p.g) b.breakpoints ++ putU16 b.scaleNum ++ putU16 b.scaleDen
            ++ putI32 b.zero ++ putU8 b.alpha ++ putU16 b.refMin ++ putU16 b.refMax ++ putU8 b.depth
            ++ putBool reason.isNone ++ putU8 (calReasonCode reason) ++ putBool active
            ++ putOption 1 (fun x => putU8 (bankCode x)) pending ++ putU8 (headStateCode state))
      ∧ [none, some CalReason.breakpointCount, some .breakpointOrder, some .scaleZero, some .window,
          some .settleDepth].map calReasonCode = List.range 6
      ∧ (∀ (m : Nat) (bank : Bank) (p : Profile) (reason : Option ProfileReason) (active defined : Bool)
        (magazine : Nat) (push paused : Bool) (pending : Option (Bank × Nat)),
        putReplyBody (.profileBank m bank p reason active defined magazine push paused pending)
          = putU8 m ++ putU8 (bankCode bank) ++ putU8 p.slots.length
            ++ putList (fun y => putU8 y.source ++ putU8 y.unit ++ putU8 y.width ++ putBool y.negate
                ++ putBool y.blankZero) p.slots
            ++ putI32 p.offset ++ putBool reason.isNone ++ putProfileReason reason ++ putBool active
            ++ putBool defined ++ putU8 magazine ++ putBool push ++ putBool paused
            ++ putOption 2 (fun x => putU8 (bankCode x.1) ++ putU8 x.2) pending)
      ∧ (∀ k, [none, some ProfileReason.slotCount, some (.source k), some (.width k), some (.unit k)].map
            putProfileReason
          = [putU8 0 ++ putU8 0, putU8 1 ++ putU8 0, putU8 2 ++ putU8 k, putU8 3 ++ putU8 k, putU8 4 ++ putU8 k])
      ∧ (∀ (m : Nat) (defined : Bool) (magazine examined : Nat) (next : Option Nat) (entries : List PocketReport),
        putReplyBody (.pockets m defined magazine examined next entries)
          = putU8 m ++ putBool defined ++ putU8 magazine ++ putU8 examined ++ putOption 1 putU8 next
            ++ putList (fun e => putU8 e.pocket ++ putU16 e.assembly ++ putU8 (asmStateCode e.state)
                ++ putOption 1 (fun x => putU8 (reasonCode x)) e.reason ++ putBool e.recheck ++ putBool e.held)
                entries)
      ∧ ∀ (examined next : Nat) (windows : List HoldWindow) (records : List CopiedRecord),
        let entry := fun e : Entry => putI32 e.value ++ putU8 (if e.fresh then 0 else 1) ++ putBool e.clamped
          ++ putU8 e.head ++ putU8 (bankCode e.bank)
        putReplyBody (.assemblies examined next windows records)
          = putU16 examined ++ putU16 next
            ++ windows.flatMap (fun w => putBool w.enabled ++ putU16 w.base ++ putU8 w.exponent
                ++ putBool w.complement)
            ++ putList (fun e => putU16 e.number ++ putBool true ++ putU8 e.record.type
                ++ putOption 8 putTag e.record.tag ++ putU8 (asmStateCode e.record.state)
                ++ putOption 8 entry e.record.length ++ putOption 8 entry e.record.radius
                ++ putU16 e.record.lifeUsed ++ putI32 e.record.lengthWear ++ putI32 e.record.radiusWear
                ++ putOption 2 putPlace e.record.location ++ putBool e.record.marked ++ putBool e.record.recheck
                ++ putOption 1 (fun x => putU8 (reasonCode x)) e.record.reason ++ putBool e.held) records)

/-- CLEAR_STATUS clears the protection-error flag, CLEAR_COUNTERS sets every event counter to 0. SET_PROTECTION, once
past the protection check: the codes 0, 1 and 2 are OPEN, KEYED and LOCKED; another mode is set and advances the
generation, the mode already held is answered NO_CHANGE, a code above 2 INVALID_TABLE, each reply with the mode after
the request (R179, R180, R183). -/
def Obligations.ClearsAndProtection : Prop :=
  ∀ (s : State) (rt : Nat), RequestTaken s →
    (s.protectionError = true →
        exec (.clearStatus rt) s
          = .next (grants (answered (.reply 0x03 rt .ok s.generation .none) { s with protectionError := false })))
      ∧ (s.protectionError = false →
        exec (.clearStatus rt) s = .next (grants (answered (.reply 0x03 rt .noChange s.generation .none) s)))
      ∧ (∃ t, exec (.clearCounters rt) s = .next t ∧ (∀ n ∈ eventCounters t, n = 0)
          ∧ t.answers = s.answers ++ [.reply 0x05 rt .ok s.generation .none]
          ∧ t = { s with
              answers := t.answers, cribEgress := t.cribEgress, hallEgress := t.hallEgress
              crib := { PortState.reset with receiving := [] }
              hall := { PortState.reset with receiving := s.hall.receiving }
              guardBlocked := 0, heads := s.heads.map fun x => { x with gaugeDiscarded := 0 }
              tagDropped := Vector.replicate 4 0, handoffDropped := 0, usageMismatch := 0, mgmtDropped := 0 })
      ∧ (protectionPasses s = true →
        (∀ (code : Nat) (mode : Protection),
            (code = 0 ∧ mode = .open_) ∨ (code = 1 ∧ mode = .keyed) ∨ (code = 2 ∧ mode = .locked) →
            (mode ≠ s.protection →
                exec (.setProtection rt code) s
                  = .next (grants (answered (.reply 0x70 rt .ok ((s.generation + 1) % 65536) (.protection mode))
                      { s with protection := mode, generation := (s.generation + 1) % 65536 })))
              ∧ (mode = s.protection →
                exec (.setProtection rt code) s
                  = .next (grants (answered (.reply 0x70 rt .noChange s.generation (.protection mode)) s))))
          ∧ ∀ code, 2 < code →
            exec (.setProtection rt code) s
              = .next (grants (answered (.reply 0x70 rt .invalidTable s.generation (.protection s.protection)) s)))

/-- R178: a table-writing request passes in OPEN, in KEYED while the KEY line is asserted, and never in LOCKED; one
that is refused is answered LOCKED, sets the protection-error flag and changes nothing else; a request that is not
table-writing is never answered LOCKED. -/
def Obligations.ProtectionRefusesTableWrites : Prop :=
  (∀ s : State, protectionPasses s = true ↔ s.protection = .open_ ∨ (s.protection = .keyed ∧ s.key = true))
    ∧ (∀ (s : State) (i : Instr) (code rt : Nat) (bytes : List Byte),
      tableWriting i = true → encodeRequest i = some (code, rt, bytes) → RequestTaken s →
        protectionPasses s = false →
          exec i s = .next (grants (answered (.reply code rt .locked s.generation .none)
            { s with protectionError := true })))
    ∧ ∀ (s t : State) (i : Instr) (code rt g : Nat) (body : ReplyBody),
      listedRequest i = true → tableWriting i = false → RequestTaken s → exec i s = .next t →
        t.answers ≠ s.answers ++ [.reply code rt .locked g body]

/-- A management request answered with a status other than OK and REDUNDANT changes nothing but the protection-error
flag, which LOCKED and PROTECTED set; an EDIT that changes nothing may have reviewed its assembly (R12, R16, R176,
R178, R180, R181). -/
def Obligations.RefusalsChangeNothing : Prop :=
  ∀ (s t : State) (i : Instr) (code rt g : Nat) (bytes : List Byte) (status : Status) (body : ReplyBody),
    RequestTaken s → listedRequest i = true → encodeRequest i = some (code, rt, bytes) → exec i s = .next t →
    t.answers = s.answers ++ [.reply code rt status g body] → status ≠ .ok → status ≠ .redundant →
    ¬(code = 0x42 ∧ status = .noChange) →
      g = s.generation
        ∧ t = grants (answered (.reply code rt status g body)
            { s with
              protectionError := s.protectionError || decide (status = .protected_) || decide (status = .locked) })

/-- At a full answer FIFO a management request, one of no listed code or no form of its code among them, or a TAG frame
is dropped and counted, up to 65,535, and changes nothing else (R99, R175). With room, which is fewer than 8 frames, a
request is taken, and its answer enters at the end (R175, R177); a table-writing request passes the protection check too
(R178). The row UNKNOWN_REQUEST with a body that does spell a request is that request (log 20). -/
def Obligations.FullAnswerFifoDrops : Prop :=
  ((∀ n, tally n = min (n + 1) 65535)
      ∧ ∀ s : State, heard .crib s = { s with crib := { s.crib with receiving := [] } }
        ∧ heard .hall s = { s with hall := { s.hall with receiving := [] } }
        ∧ (∀ a, answered a s = { heard .crib s with answers := s.answers ++ [a] })
        ∧ (RequestTaken s ↔ s.resetPin = false ∧ s.answers.length < 8)
        ∧ (WriteTaken s ↔ RequestTaken s ∧ protectionPasses s = true))
    ∧ ∀ (s : State) (i : Instr), s.resetPin = false → 8 ≤ s.answers.length →
    (listedRequest i = true ∨ (∃ code rt body, i = .unknownRequest code rt body) →
        exec i s = .next (grants { heard .crib s with mgmtDropped := tally s.mgmtDropped }))
      ∧ ∀ (c : Fin 4) (tag : Tag) (m p : Nat), i = .issue c tag m p ∨ i = .returnHolder c tag →
        exec i s = .next (grants { heard .crib s with tagDropped := s.tagDropped.set c (tally s.tagDropped[c]) })

/-- Once LOCKED, the mode stays LOCKED until power-on reset: no other command changes it (R179). -/
def Obligations.LockedStaysLocked : Prop :=
  ∀ (s t : State) (i : Instr), s.protection = .locked → i ≠ .powerOnReset → exec i s = .next t →
    t.protection = .locked

/-- Apart from the resets, and from frames (which may carry a table-writing request), a command that is not a
table-writing request leaves the table generation; a table-writing request leaves it or advances it by one, 65,535
wrapping to 0 (R181). The table-writing requests are those whose codes section 10.1 marks as protected. -/
def Obligations.GenerationTracksTableWrites : Prop :=
  (∀ i : Instr, (tableWriting i = true ↔
      ∃ code rt body, listedRequest i = true ∧ encodeRequest i = some (code, rt, body)
        ∧ code ∈ [0x10, 0x20, 0x22, 0x23, 0x24, 0x30, 0x31, 0x33, 0x34, 0x40, 0x41, 0x42, 0x43, 0x45, 0x50, 0x51, 0x70])
      ∧ (listedRequest i = true ↔ encodeRequest i ≠ none ∧ ∀ code rt body, i ≠ .unknownRequest code rt body))
    ∧ ∀ (s t : State) (i : Instr), i ≠ .powerOnReset → i ≠ .pinReset → (∀ p f, i ≠ .frameArrival p f) →
    (∀ code rt body, i = .unknownRequest code rt body → i.wellFormed = true) → exec i s = .next t →
      (tableWriting i = false → t.generation = s.generation)
        ∧ (tableWriting i = true →
            t.generation = s.generation ∨ t.generation = (s.generation + 1) % 65536)

/-- A request of an unknown code is answered UNKNOWN_REQUEST and one whose body has not the form of its fields
INVALID_TABLE, in every protection mode, with the generation alone (R176). -/
def Obligations.UnreadableRequestsAreRefused : Prop :=
  ∀ (s : State) (code rt : Nat) (body : List Byte),
    RequestTaken s → (Instr.unknownRequest code rt body).wellFormed = true →
      exec (.unknownRequest code rt body) s
        = .next (grants (answered
            (.reply code rt (if code ∈ requestCodes then .invalidTable else .unknownRequest) s.generation .none) s))

/-- LINE_RESET ends work in progress, empties every queue, keeps every table, counter and mode, and its reply is the
first frame granted; the assembly of an aborted capture takes its prior state, every other record stays (R40, R69, R93,
R135, R156, R166, R173, R184). -/
def Obligations.LineResetEndsWorkInProgress : Prop :=
  (∀ (s : State) (n : Nat),
      let after := tableGet (s.heads.toList.foldl abortForReset s).assemblies n
      (∀ (h : Fin 4) (c : Capture) (r : Assembly), (headAt s h).slot = .armed c → c.assembly = n →
          (∀ k : Fin 4, armedOn s k = some n → k = h) → recordAt s n = some r →
          after = some { r with state := c.prior })
        ∧ ((∀ h : Fin 4, armedOn s h ≠ some n) → after = recordAt s n))
    ∧ ∀ (s : State) (rt : Nat), RequestTaken s →
      exec (.lineReset rt) s = .next
        { s with
          crib := { s.crib with receiving := [] }
          cribTransit := [], hallTransit := [], notices := [], discardedNotices := 0, waitList := [], handoff := []
          answers := [.reply 0x71 rt .ok s.generation .none]
          cribEgress :=
            { sending := some (.answer, answerFrame (.reply 0x71 rt .ok s.generation .none)), pointer := .notice }
          hallEgress := { sending := none, pointer := .transit }
          heads := s.heads.map fun x => { x with pendingCal := none, slot := .idle }
          assemblies := (s.heads.toList.foldl abortForReset s).assemblies
          machines := s.machines.map fun x => { x with switch := none }
          sweep :=
            { state := if 0 < s.sweep.marks then .running else .idle, cursor := 0, marks := s.sweep.marks
              stepped := 0, otherwise := 0 }
          protectionError := false }

/-! ## Gauge frames and captures (chapters 3 and 5) -/

/-- A contact of a READY head with an IDLE slot, its frame passing the monitor (R50), that passes its checks stores the
state, takes the assembly to MEASURING and arms the slot with the reading as the capture's first; one that fails a check
latches the slot with CONTACT_REFUSED for the first check that fails (BUSY_ELSEWHERE names the head whose slot holds the
assembly); one with an unknown code is counted (an axis code is 0 LENGTH or 1 RADIUS, a gating kind 0 or 1); one that
finds the slot LATCHED is ignored; one that finds it ARMED aborts that capture with RECONTACT, completes a pending
switch, and is then handled from IDLE; an UNCALIBRATED head refuses it, a FAULT head discards it (R42, R44, R56, R65,
R78 to R82, R88). -/
def Obligations.ContactArmsOrIsRefused : Prop :=
  ∀ (s : State) (h : Fin 4) (g : GaugeFrame) (tag : Tag), s.resetPin = false →
    let x := headAt s h
    let inWindow := 0 < g.reference ∧ (activeCal x).refMin ≤ g.reference ∧ g.reference ≤ (activeCal x).refMax
    let discarded : State :=
      { heard .crib s with heads := s.heads.set h { x with gaugeDiscarded := tally x.gaugeDiscarded } }
    (x.status = .uncalibrated →
        exec (.contact h g tag) s = .next (grants (notify
          (.contactRefused h .headNotReady tag none none none none) (heard .crib s))))
      ∧ (∀ record, x.status = .fault record → exec (.contact h g tag) s = .next (grants discarded))
      ∧ (x.status = .ready → (x.slot = .idle ∨ x.slot = .latched) → inWindow →
        (1 < g.axis ∨ 1 < g.gating) → exec (.contact h g tag) s = .next (grants discarded))
      ∧ (x.status = .ready → x.slot = .latched → inWindow → g.axis ≤ 1 → g.gating ≤ 1 →
        exec (.contact h g tag) s = .next (grants (heard .crib s)))
      ∧ (∀ (c : Capture) (r : Assembly), x.status = .ready → x.slot = .armed c → recordAt s c.assembly = some r →
        let ended := fun y : Head =>
          notify (.captureAborted h c.assembly c.axis .recontact c.prior c.frames c.history.length)
            { s with
              assemblies := tableSet s.assemblies c.assembly { r with state := c.prior }
              heads := s.heads.set h y }
        (x.pendingCal = none →
            exec (.contact h g tag) s = exec (.contact h g tag) (ended { x with slot := .idle }))
          ∧ ∀ b, x.pendingCal = some b →
            exec (.contact h g tag) s = exec (.contact h g tag)
              (notify (.calSwitchDone h b x.active (some c.assembly) .ready)
                (ended { x with slot := .idle, active := b, pendingCal := none })))
      ∧ ∀ axis : Axis, x.status = .ready → x.slot = .idle → inWindow →
        g.axis = (if axis = .length then 0 else 1) → g.gating ≤ 1 →
        let refused := fun (reason : RefusalReason) (n : Option Nat) (state : Option AsmState) (holding : Option Nat) =>
          grants (notify (.contactRefused h reason tag (some axis) n state holding)
            { heard .crib s with heads := s.heads.set h { x with slot := .latched } })
        let free := fun state : AsmState =>
          state = .built ∨ state = .partly ∨ state = .preset ∨ state = .rejected ∨ state = .remeasure
        let required := fun t : TypeRecord => axis = .length ∨ t.axes = .lengthRadius
        (tableGet s.tagMap tag.toNat = none →
            exec (.contact h g tag) s = .next (refused .unknownTag none none none))
          ∧ ∀ n r, tableGet s.tagMap tag.toNat = some n → recordAt s n = some r →
            (isHeld s n = true → exec (.contact h g tag) s = .next (refused .held (some n) none none))
              ∧ (isHeld s n = false → r.state = .measuring →
                ∃ holding : Option Nat,
                  exec (.contact h g tag) s = .next (refused .busyElsewhere (some n) (some .measuring) holding)
                    ∧ ∀ k : Fin 4, armedOn s k = some n → (∀ j : Fin 4, armedOn s j = some n → j = k) →
                      holding = some k.val)
              ∧ (isHeld s n = false → r.state ≠ .measuring → ¬free r.state →
                exec (.contact h g tag) s = .next (refused .state (some n) (some r.state) none))
              ∧ (isHeld s n = false → free r.state → ¬required (typeAt s r.type) →
                exec (.contact h g tag) s = .next (refused .axisNotRequired (some n) none none))
              ∧ (isHeld s n = false → free r.state → required (typeAt s r.type) →
                2 ≤ (activeCal x).depth →
                exec (.contact h g tag) s = .next (grants
                  { heard .crib s with
                    assemblies := tableSet s.assemblies n { r with state := .measuring }
                    heads := s.heads.set h { x with
                      slot := .armed
                        { assembly := n, axis := axis, prior := r.state, bank := x.active
                          history := (readingOf (activeCal x) g).toList, frames := 1 } } }))

/-- A sample of an ARMED capture whose frame passes the monitor (R50) enters it: the frame count rises by one, and the
history keeps the last K accepted readings. An accepted reading that leaves K entries, the largest minus the smallest at
most the settle band, settles it (the result replaces the length or the radius entry; K is 2, 4 or 8 in a valid bank,
R58; the premise asks for 1 at least): the axis entry, the outcome of the evaluation, no mark, slot LATCHED,
CAPTURE_DONE (R82 to R85, R37). Its reading is DISCARDED when the overflow mark is set or its divisor is 0, and else the
compensated length (R48, R49). A sample of an UNCALIBRATED or FAULT head, or of an unknown gating kind, is counted; one
that finds its slot IDLE or LATCHED is ignored (R42, R44, R56, R78). -/
def Obligations.SampleEntersOrSettles : Prop :=
  (∀ (e : Entry) (r : Assembly),
      withEntry .length e r = { r with length := some e } ∧ withEntry .radius e r = { r with radius := some e })
    ∧ (∀ (x : Head) (b : Bank),
      calBankOf x b = (if b = .bankA then x.bankA else x.bankB) ∧ activeCal x = calBankOf x x.active)
    ∧ (∀ (s : State) (h : Fin 4), headAt s h = s.heads[h]
      ∧ ∀ n, armedOn s h = some n ↔ ∃ c, s.heads[h].slot = .armed c ∧ c.assembly = n)
    ∧ (∀ (b : CalBank) (g : GaugeFrame), g.gating ≤ 1 →
      let divisor := if g.gating = 0 then g.reference else g.sensor
      readingOf b g = if g.overflow = true ∨ divisor = 0 then none else some (compensated b g))
    ∧ (∀ (s : State) (h : Fin 4) (g : GaugeFrame), s.resetPin = false →
      let x := headAt s h
      let inWindow := 0 < g.reference ∧ (activeCal x).refMin ≤ g.reference ∧ g.reference ≤ (activeCal x).refMax
      let discarded : State :=
        { heard .crib s with heads := s.heads.set h { x with gaugeDiscarded := tally x.gaugeDiscarded } }
      (x.status ≠ .ready → exec (.sample h g) s = .next (grants discarded))
        ∧ (x.status = .ready → inWindow → 1 < g.gating →
          exec (.sample h g) s = .next (grants discarded))
        ∧ (x.status = .ready → inWindow → g.gating ≤ 1 →
          (x.slot = .idle ∨ x.slot = .latched) → exec (.sample h g) s = .next (grants (heard .crib s))))
    ∧ ∀ (s : State) (h : Fin 4) (g : GaugeFrame) (c : Capture) (r : Assembly),
      let x := headAt s h
      let inWindow := 0 < g.reference ∧ (activeCal x).refMin ≤ g.reference ∧ g.reference ≤ (activeCal x).refMax
      let t := typeAt s r.type
      let reading := readingOf (activeCal x) g
      let depth := (calBankOf x c.bank).depth
      let accepted := c.history ++ reading.toList
      let kept := if reading = none then c.history else accepted.drop (accepted.length - depth)
      let c' : Capture := { c with frames := c.frames + 1, history := kept }
      let settled :=
        reading ≠ none ∧ kept.length = depth ∧ ∀ a ∈ kept, ∀ b ∈ kept, a.value - b.value ≤ t.band
      s.resetPin = false → x.status = .ready → x.slot = .armed c → inWindow →
      g.gating ≤ 1 → recordAt s c.assembly = some r → 1 ≤ depth →
      (¬settled → c'.frames < 64 →
          exec (.sample h g) s = .next (grants
            { heard .crib s with heads := s.heads.set h { x with slot := .armed c' } }))
        ∧ (settled → x.pendingCal = none →
          let value := resultOf c'.axis (meanOf c'.history)
          let clamp := c'.history.any (·.clamped)
          let entered := withEntry c'.axis ⟨value, true, clamp, h, c'.bank⟩ r
          exec (.sample h g) s = .next (grants (notify
            (.captureDone h c'.assembly c'.axis value (meanOf c'.history) clamp c'.bank c'.frames
              (verdictOf t entered) (outcomeOf t entered r.state))
            { heard .crib s with
              assemblies := tableSet s.assemblies c'.assembly
                { entered with state := outcomeOf t entered r.state, marked := false }
              sweep := if r.marked then
                  { s.sweep with marks := s.sweep.marks - 1, otherwise := s.sweep.otherwise + 1 }
                else s.sweep
              heads := s.heads.set h { x with slot := .latched } })))

/-- A release of a READY head whose frame passes the monitor (R50): a LATCHED slot goes to IDLE, an IDLE slot stays, an
ARMED capture is aborted with RELEASED_EARLY and its assembly takes the prior state back (R78, R87). A release of an
UNCALIBRATED or FAULT head is counted and changes nothing else (R44, R56). -/
def Obligations.ReleaseEndsTheTouch : Prop :=
  ∀ (s : State) (h : Fin 4) (g : GaugeFrame), s.resetPin = false →
    let x := headAt s h
    let inWindow := 0 < g.reference ∧ (activeCal x).refMin ≤ g.reference ∧ g.reference ≤ (activeCal x).refMax
    (x.status ≠ .ready →
        exec (.release h g) s = .next (grants
          { heard .crib s with heads := s.heads.set h { x with gaugeDiscarded := tally x.gaugeDiscarded } }))
      ∧ (x.status = .ready → inWindow →
        (x.slot = .latched →
            exec (.release h g) s = .next (grants
              { heard .crib s with heads := s.heads.set h { x with slot := .idle } }))
          ∧ (x.slot = .idle → exec (.release h g) s = .next (grants (heard .crib s)))
          ∧ ∀ (c : Capture) (r : Assembly), x.slot = .armed c → recordAt s c.assembly = some r →
            x.pendingCal = none →
            exec (.release h g) s = .next (grants (notify
              (.captureAborted h c.assembly c.axis .releasedEarly c.prior c.frames c.history.length)
              { heard .crib s with
                assemblies := tableSet s.assemblies c.assembly { r with state := c.prior }
                heads := s.heads.set h { x with slot := .idle } })))

/-- A capture's 64th reading, from a frame that passes the monitor (R50), that does not settle it aborts it with
SETTLE_TIMEOUT and latches the slot; the row SETTLE_TIMEOUT is that SAMPLE frame (R82, R83, R86, R87; that the row is
the frame is the model's choice, log 4). -/
def Obligations.SixtyFourthReadingTimesOut : Prop :=
  ∀ (s : State) (h : Fin 4) (g : GaugeFrame) (c : Capture) (r : Assembly),
    let x := headAt s h
    let inWindow := 0 < g.reference ∧ (activeCal x).refMin ≤ g.reference ∧ g.reference ≤ (activeCal x).refMax
    let t := typeAt s r.type
    let reading := readingOf (activeCal x) g
    let depth := (calBankOf x c.bank).depth
    let accepted := c.history ++ reading.toList
    let kept := if reading = none then c.history else accepted.drop (accepted.length - depth)
    let c' : Capture := { c with frames := c.frames + 1, history := kept }
    let settled :=
      reading ≠ none ∧ kept.length = depth ∧ ∀ a ∈ kept, ∀ b ∈ kept, a.value - b.value ≤ t.band
    s.resetPin = false → x.status = .ready → x.slot = .armed c → inWindow →
    g.gating ≤ 1 → recordAt s c.assembly = some r → 1 ≤ depth → ¬settled → c'.frames = 64 →
    x.pendingCal = none →
      ∀ i : Instr, i = .settleTimeout h g ∨ i = .sample h g →
        exec i s = .next (grants (notify
          (.captureAborted h c.assembly c.axis .settleTimeout c.prior 64 c'.history.length)
          { heard .crib s with
            assemblies := tableSet s.assemblies c.assembly { r with state := c.prior }
            heads := s.heads.set h { x with slot := .latched } }))

/-- A pending calibration switch completes at each of the four ends of its head's capture that R65 names, after the
capture's own notice: at a settle, at SETTLE_TIMEOUT, at an early release, and at a recontact before the new contact is
handled (R65, R67, R85, R88). The row AT_CAPTURE_END is the gauge frame that ends such a capture, and SETTLE_TIMEOUT the
SAMPLE frame that times it out, by the model's choice (log 4). -/
def Obligations.CaptureEndCompletesSwitch : Prop :=
  (∀ (e : Entry) (r : Assembly),
      withEntry .length e r = { r with length := some e } ∧ withEntry .radius e r = { r with radius := some e })
    ∧ (∀ (s : State) (h : Fin 4) (g : GaugeFrame) (tag : Tag) (c : Capture) (r : Assembly) (b : Bank) (i : Instr),
      let x := headAt s h
      let inWindow := 0 < g.reference ∧ (activeCal x).refMin ≤ g.reference ∧ g.reference ≤ (activeCal x).refMax
      let done := notify (.calSwitchDone h b x.active (some c.assembly) .ready)
      let aborted := fun (reason : AbortReason) (frames entries : Nat) (slot : Slot) (u : State) =>
        done (notify (.captureAborted h c.assembly c.axis reason c.prior frames entries)
          { u with
            assemblies := tableSet s.assemblies c.assembly { r with state := c.prior }
            heads := s.heads.set h { x with slot := slot, active := b, pendingCal := none } })
      s.resetPin = false → x.status = .ready → x.slot = .armed c → x.pendingCal = some b →
      recordAt s c.assembly = some r →
      ((i = .release h g ∨ i = .atCaptureEnd h .release g tag) → inWindow →
          exec i s
            = .next (grants (aborted .releasedEarly c.frames c.history.length .idle (heard .crib s))))
        ∧ ((i = .contact h g tag ∨ i = .atCaptureEnd h .contact g tag) →
          exec i s = exec (.contact h g tag) (aborted .recontact c.frames c.history.length .idle s))
        ∧ (inWindow → g.gating ≤ 1 →
          let t := typeAt s r.type
          let reading := readingOf (activeCal x) g
          let depth := (calBankOf x c.bank).depth
          let accepted := c.history ++ reading.toList
          let kept := if reading = none then c.history else accepted.drop (accepted.length - depth)
          let c' : Capture := { c with frames := c.frames + 1, history := kept }
          let settled :=
            reading ≠ none ∧ kept.length = depth ∧ ∀ a ∈ kept, ∀ b ∈ kept, a.value - b.value ≤ t.band
          1 ≤ depth →
          (¬settled → 64 ≤ c'.frames →
              (i = .sample h g ∨ i = .settleTimeout h g ∨ i = .atCaptureEnd h .sample g tag) →
              exec i s
                = .next (grants (aborted .settleTimeout c'.frames c'.history.length .latched (heard .crib s))))
            ∧ (settled → (i = .sample h g ∨ i = .atCaptureEnd h .sample g tag) →
              let value := resultOf c.axis (meanOf c'.history)
              let clamp := c'.history.any (·.clamped)
              let entered := withEntry c.axis ⟨value, true, clamp, h, c.bank⟩ r
              exec i s = .next (grants (done (notify
                (.captureDone h c.assembly c.axis value (meanOf c'.history) clamp c.bank c'.frames
                  (verdictOf t entered) (outcomeOf t entered r.state))
                { heard .crib s with
                  assemblies := tableSet s.assemblies c.assembly
                    { entered with state := outcomeOf t entered r.state, marked := false }
                  sweep := if r.marked then
                      { s.sweep with marks := s.sweep.marks - 1, otherwise := s.sweep.otherwise + 1 }
                    else s.sweep
                  heads := s.heads.set h { x with slot := .latched, active := b, pendingCal := none } }))))))
    ∧ ∀ (s : State) (h : Fin 4) (k : SampleKind) (g : GaugeFrame) (tag : Tag),
        endsHeldCapture s h k g = true →
          exec (.atCaptureEnd h k g tag) s
            = match k with
              | .contact => exec (.contact h g tag) s
              | .sample => exec (.sample h g) s
              | .release => exec (.release h g) s

/-- A frame that fails the reference monitor, its reference count 0 or outside the active bank's window, limits included,
stops its head: a pending switch is cancelled, the head enters FAULT
with its record, the slot goes to IDLE; an ARMED capture is aborted first, CAPTURE_ABORTED before HEAD_FAULT
(R50, R51, R52). A CONTACT that meets an ARMED slot ends that capture first (R88), so it is not among these. -/
def Obligations.ReferenceFaultStopsHead : Prop :=
  ∀ (s : State) (h : Fin 4) (k : SampleKind) (g : GaugeFrame) (tag : Tag) (i : Instr),
    let x := headAt s h
    let inWindow := 0 < g.reference ∧ (activeCal x).refMin ≤ g.reference ∧ g.reference ≤ (activeCal x).refMax
    let stopped : Head :=
      { x with status := .fault ⟨g.reference, k, x.active⟩, pendingCal := none, slot := .idle }
    s.resetPin = false → x.status = .ready → ¬inWindow →
    ((k = .contact ∧ i = .contact h g tag) ∨ (k = .sample ∧ i = .sample h g) ∨ (k = .release ∧ i = .release h g)) →
    ((x.slot = .idle ∨ x.slot = .latched) →
        exec i s = .next (grants (notify
          (.headFault h g.reference k x.active (activeCal x).refMin (activeCal x).refMax none x.pendingCal)
          { heard .crib s with heads := s.heads.set h stopped })))
      ∧ ∀ (c : Capture) (r : Assembly), x.slot = .armed c → recordAt s c.assembly = some r → k ≠ .contact →
        exec i s = .next (grants (notify
          (.headFault h g.reference k x.active (activeCal x).refMin (activeCal x).refMax (some c.assembly)
            x.pendingCal)
          (notify (.captureAborted h c.assembly c.axis .referenceFault c.prior c.frames c.history.length)
            { heard .crib s with
              assemblies := tableSet s.assemblies c.assembly { r with state := c.prior }
              heads := s.heads.set h stopped })))

/-- A gauge frame changes no other head (R41: arrivals at different heads touch different state), no record but the one
its head's capture names and the one its tag names, of those no more than the state, the axis entries and the mark, the
sweep by no more than one mark cleared otherwise, and no type, window, machine, map, list, answer, mode or counter of
another block (R37, R44, R80, R81, R85, R87). -/
def Obligations.GaugeFramesTouchOneHead : Prop :=
  ∀ (s t : State) (h : Fin 4) (i : Instr),
    (∃ g tag, i = .contact h g tag) ∨ (∃ g, i = .sample h g) ∨ (∃ g, i = .release h g) →
    exec i s = .next t →
      (∀ h' : Fin 4, h' ≠ h → headAt t h' = headAt s h')
        ∧ (∀ n, armedOn s h ≠ some n → (∀ g tag, i = .contact h g tag → tableGet s.tagMap tag.toNat ≠ some n) →
          recordAt t n = recordAt s n)
        ∧ (∀ n r, recordAt s n = some r → ∃ r', recordAt t n = some r'
          ∧ r' = { r with state := r'.state, length := r'.length, radius := r'.radius, marked := r'.marked })
        ∧ (t.sweep = s.sweep
          ∨ t.sweep = { s.sweep with marks := s.sweep.marks - 1, otherwise := s.sweep.otherwise + 1 })
        ∧ t.types = s.types ∧ t.tagMap = s.tagMap ∧ t.issueMap = s.issueMap ∧ t.holds = s.holds
        ∧ t.machines = s.machines ∧ t.waitList = s.waitList ∧ t.handoff = s.handoff ∧ t.answers = s.answers
        ∧ t.hallTransit = s.hallTransit ∧ t.cribTransit = s.cribTransit ∧ t.audit = s.audit
        ∧ t.generation = s.generation ∧ t.protection = s.protection ∧ t.protectionError = s.protectionError
        ∧ t.key = s.key ∧ t.resetPin = s.resetPin ∧ t.hall = s.hall
        ∧ t.crib = { s.crib with receiving := t.crib.receiving } ∧ t.guardBlocked = s.guardBlocked
        ∧ t.tagDropped = s.tagDropped ∧ t.handoffDropped = s.handoffDropped
        ∧ t.usageMismatch = s.usageMismatch ∧ t.mgmtDropped = s.mgmtDropped ∧ s.notices <+: t.notices

/-- Every step keeps the heads legal: UNCALIBRATED exactly while the active bank is invalid, the slot IDLE unless
READY, a pending switch only during a capture, a capture on the active bank (R45, R46, R64, R77). -/
def Obligations.HeadsStayLegal : Prop :=
  ∀ s t : State, HeadsLegal s → step s = .next t → HeadsLegal t

/-- Every step keeps it so that an assembly is MEASURING exactly when exactly one ARMED slot names it (R81). -/
def Obligations.CapturesStayMatched : Prop :=
  ∀ s t : State, TablesCanonical s → CapturesMatch s → step s = .next t → CapturesMatch t

/-! ## Length arithmetic (chapter 4) -/

/-- Round-half-out: the nearest integer, and at an exact half the one farther from zero (00_scope.md 5.2, R70). -/
def Obligations.RoundingIsHalfOut : Prop :=
  ∀ (x : Int) (d : Nat), 0 < d →
    2 * (x - roundHalfOut x d * d).natAbs ≤ d
      ∧ (2 * (x - roundHalfOut x d * d).natAbs = d → x.natAbs < (roundHalfOut x d * d).natAbs)

/-- R72: below the first breakpoint and above the last the gap is the end's with the clamp mark; at a breakpoint it is
that breakpoint's; inside a segment it is interpolated, between the gaps of the segment's ends; and it stays within
-20,000 to 20,000. -/
def Obligations.GapInterpolates : Prop :=
  ∀ (p : Breakpoint) (rest : List Breakpoint) (q : Int),
    (p :: rest).Pairwise (fun a b => a.q < b.q) →
      (q < p.q → gapStage (p :: rest) q = (p.g, true))
        ∧ (∀ b ∈ p :: rest, q = b.q → gapStage (p :: rest) q = (b.g, false))
        ∧ (∀ l, (p :: rest).getLast? = some l → l.q < q → gapStage (p :: rest) q = (l.g, true))
        ∧ (∀ (before after : List Breakpoint) (a b : Breakpoint), p :: rest = before ++ a :: b :: after →
            a.q ≤ q → q < b.q →
              gapStage (p :: rest) q = (a.g + roundHalfOut ((b.g - a.g) * (q - a.q)) (b.q - a.q).toNat, false)
                ∧ min a.g b.g ≤ (gapStage (p :: rest) q).1 ∧ (gapStage (p :: rest) q).1 ≤ max a.g b.g)
        ∧ ((∀ b ∈ p :: rest, -20000 ≤ b.g ∧ b.g ≤ 20000) →
            -20000 ≤ (gapStage (p :: rest) q).1 ∧ (gapStage (p :: rest) q).1 ≤ 20000)

/-- R71, R73, R74, R75: the ratio truncates and is limited to 1,048,575; the position, the raw length and the
compensated length are limited to the LU range; every limit sets the reading's clamp mark; the position and the
thermal correction round half out. The settled mean and the halved radius round half out too (R84). -/
def Obligations.LengthStages : Prop :=
  (∀ (b : CalBank) (g : GaugeFrame),
    let lim : Int → Int := fun x => max (-999999999) (min 999999999 x)
    let ratio := if g.gating = 0 then g.sensor * 65536 / g.reference else g.reference * 65536 / g.sensor
    let q := ratioStage g
    let gap := gapStage b.breakpoints q.1
    let position := roundHalfOut (g.scale * b.scaleNum) b.scaleDen + b.zero
    let raw := lim position + gap.1
    let length := lim raw - roundHalfOut (lim raw * b.alpha * (g.temperature - 80)) 4000000
    (ratio ≤ 1048575 → q = (ratio, false)) ∧ (1048575 < ratio → q = (1048575, true))
      ∧ positionStage b g.scale = (lim position, decide (lim position ≠ position))
      ∧ (compensated b g).value = lim length
      ∧ ((compensated b g).clamped = true ↔
          q.2 = true ∨ gap.2 = true ∨ lim position ≠ position ∨ lim raw ≠ raw ∨ lim length ≠ length))
    ∧ ∀ (history : List Sample),
      meanOf history = roundHalfOut ((history.map (·.value)).sum) history.length
        ∧ resultOf .length (meanOf history) = meanOf history
        ∧ resultOf .radius (meanOf history) = roundHalfOut (meanOf history) 2

/-! ## Calibration banks (chapter 4) -/

/-- The calibration writes, each with its checks in order. A head above 3 or a bank code other than 0 (A) and 1 (B) is
BAD_INDEX. WRITE_CAL: a field outside its storage range or a list not of its count is INVALID_TABLE, a valid active bank
ACTIVE_BANK, the target of a pending switch BUSY, equal content NO_CHANGE; another body is stored, a thermal coefficient
above 30 as 30, and may make its head READY (R45, R60, R61). SWITCH_CAL: the active bank is REDUNDANT, which cancels a
pending switch without a notice; an invalid bank is INVALID_TABLE with its reason, the first condition of R58 that
fails; the target already pending is OK and changes nothing; none of these advances the generation (R62). Else it
completes at once or becomes pending (R63, R64, R67). CANCEL_CAL_SWITCH removes the pending switch, STATE without one
(R66); HEAD_RESTORE returns a FAULT head to READY, STATE for another (R54). That the refusals for which no field is
named here, and the OK to a switch already pending, carry the generation alone is the model's choice (log 11). -/
def Obligations.CalibrationWritesTakeEffect : Prop :=
  (∀ b : CalBank,
      let counted := 2 ≤ b.breakpoints.length ∧ b.breakpoints.length ≤ 16
      let rising := b.breakpoints.Pairwise fun p q => p.q < q.q
      let scaled := b.scaleNum ≠ 0 ∧ b.scaleDen ≠ 0
      let window := 1 ≤ b.refMin ∧ b.refMin ≤ b.refMax
      let deep := b.depth = 2 ∨ b.depth = 4 ∨ b.depth = 8
      (¬counted → calReason b = some .breakpointCount)
        ∧ (counted → ¬rising → calReason b = some .breakpointOrder)
        ∧ (counted → rising → ¬scaled → calReason b = some .scaleZero)
        ∧ (counted → rising → scaled → ¬window → calReason b = some .window)
        ∧ (counted → rising → scaled → window → ¬deep → calReason b = some .settleDepth)
        ∧ (counted → rising → scaled → window → deep → calReason b = none))
    ∧ (∀ (s : State) (rt head code : Nat), WriteTaken s →
      let outOfRange := fun request : Nat => .next (grants (answered (.reply request rt .badIndex s.generation .none) s))
      (3 < head ∨ 1 < code →
          (∀ body, exec (.writeCal rt head code body) s = outOfRange 0x20)
            ∧ exec (.switchCal rt head code) s = outOfRange 0x22)
        ∧ (3 < head → exec (.cancelCalSwitch rt head) s = outOfRange 0x23
          ∧ exec (.headRestore rt head) s = outOfRange 0x24))
    ∧ ∀ (s : State) (rt : Nat) (h : Fin 4) (b : Bank), WriteTaken s →
      let code := if b = .bankA then 0 else 1
      let refused := fun (request : Nat) (status : Status) (body : ReplyBody) =>
        .next (grants (answered (.reply request rt status s.generation body) s))
      let x := headAt s h
      let old := if b = .bankA then x.bankA else x.bankB
      let risen := if x.status = .uncalibrated then .ready else x.status
      let next := (s.generation + 1) % 65536
      (∀ body : CalBody,
          let storable := body.count ≤ 16 ∧ body.breakpoints.length = body.count
            ∧ (∀ p ∈ body.breakpoints, 0 ≤ p.q ∧ p.q ≤ 1048575 ∧ -20000 ≤ p.g ∧ p.g ≤ 20000)
            ∧ -999999999 ≤ body.zero ∧ body.zero ≤ 999999999 ∧ body.depth ≤ 8
          let content : CalBank :=
            { breakpoints := body.breakpoints, scaleNum := body.scaleNum, scaleDen := body.scaleDen
              zero := body.zero, alpha := min body.alpha 30, refMin := body.refMin, refMax := body.refMax
              depth := body.depth }
          let stored := if b = .bankA then { x with bankA := content } else { x with bankB := content }
          let y := if x.active = b ∧ calReason content = none then { stored with status := risen } else stored
          let inUse := x.active = b ∧ calReason old = none
          let targeted := x.active ≠ b ∧ x.pendingCal = some b
          (¬storable → exec (.writeCal rt h code body) s = refused 0x20 .invalidTable .none)
            ∧ (storable → inUse → exec (.writeCal rt h code body) s = refused 0x20 .activeBank .none)
            ∧ (storable → targeted → exec (.writeCal rt h code body) s = refused 0x20 .busy .none)
            ∧ (storable → ¬inUse → ¬targeted → content = old →
              exec (.writeCal rt h code body) s = refused 0x20 .noChange .none)
            ∧ (storable → ¬inUse → ¬targeted → content ≠ old →
              exec (.writeCal rt h code body) s
                = .next (grants (answered
                    (.reply 0x20 rt .ok next (.calWritten h b (calReason content) (x.active = b) y.status))
                    { s with heads := s.heads.set h y, generation := next }))))
        ∧ (x.active = b →
          exec (.switchCal rt h code) s
            = .next (grants (answered (.reply 0x22 rt .redundant s.generation (.redundant x.pendingCal))
                { s with heads := s.heads.set h { x with pendingCal := none } })))
        ∧ (∀ reason, x.active ≠ b → calReason old = some reason →
          exec (.switchCal rt h code) s = refused 0x22 .invalidTable (.calInvalid reason))
        ∧ (x.active ≠ b → calReason old = none → x.pendingCal = some b →
          exec (.switchCal rt h code) s
            = .next (grants (answered (.reply 0x22 rt .ok s.generation .none) s)))
        ∧ (x.active ≠ b → calReason old = none → x.pendingCal = none → (x.slot = .idle ∨ x.slot = .latched) →
          exec (.switchCal rt h code) s
            = .next (grants (answered (.reply 0x22 rt .ok next (.calSwitched b risen))
                (notify (.calSwitchDone h b x.active none risen)
                  { s with
                    heads := s.heads.set h { x with active := b, pendingCal := none, status := risen }
                    generation := next }))))
        ∧ (∀ c, x.active ≠ b → calReason old = none → x.pendingCal = none → x.slot = .armed c →
          exec (.switchCal rt h code) s
            = .next (grants (answered (.reply 0x22 rt .ok next (.calPending b x.active))
                { s with heads := s.heads.set h { x with pendingCal := some b }, generation := next })))
        ∧ (x.pendingCal = some b →
          exec (.cancelCalSwitch rt h) s
            = .next (grants (answered (.reply 0x23 rt .ok next (.cancelled b))
                (notify (.calSwitchCancelled h b)
                  { s with heads := s.heads.set h { x with pendingCal := none }, generation := next }))))
        ∧ (x.pendingCal = none → exec (.cancelCalSwitch rt h) s = refused 0x23 .state .none)
        ∧ ((∀ record, x.status ≠ .fault record) → exec (.headRestore rt h) s = refused 0x24 .state .none)
        ∧ ∀ record, x.status = .fault record →
          exec (.headRestore rt h) s
            = .next (grants (answered (.reply 0x24 rt .ok next (.headRestored h .ready))
                { s with heads := s.heads.set h { x with status := .ready }, generation := next }))

/-! ## Types and the sweep (chapter 2) -/

/-- WRITE_TYPE, its checks in order: a number above 127 is BAD_INDEX; a sweep that is RUNNING or SUSPENDED gives BUSY,
whatever the body; a field outside the ranges of section 2.1 INVALID_TABLE; a body equal to the record NO_CHANGE; one
that undefines a type in use STATE; each reply carries the type number, OK and NO_CHANGE the record too. An accepted
write stores its record, an audit threshold above 32,767 as 32,767. One that changes the required axes, a nominal value
or a tolerance also marks the type's assemblies in PARTIAL, PRESET, REJECTED, MEASURING, ISSUED and IN_SERVICE, and
starts the sweep when marks exist (R25, R30 to R33). -/
def Obligations.TypeWriteMarksAssemblies : Prop :=
  ∀ (s : State) (rt n : Nat) (body : TypeBody), WriteTaken s →
    let old := typeAt s n
    let refused := fun (status : Status) (fields : ReplyBody) =>
      .next (grants (answered (.reply 0x10 rt status s.generation fields) s))
    let legal := body.defined ≤ 1 ∧ body.axes ≤ 1
      ∧ (∀ v ∈ [body.nominalL, body.nominalR], -999999999 ≤ v ∧ v ≤ 999999999)
      ∧ (∀ v ∈ [body.lowerL, body.lowerR], -1000000 ≤ v ∧ v ≤ 0)
      ∧ (∀ v ∈ [body.upperL, body.upperR], 0 ≤ v ∧ v ≤ 1000000) ∧ 1 ≤ body.band ∧ body.band ≤ 1000
      ∧ ∀ v ∈ [body.lengthWearLimit, body.radiusWearLimit], 0 ≤ v ∧ v ≤ 999999999
    let new : TypeRecord :=
      { defined := decide (body.defined = 1), axes := if body.axes = 0 then .length else .lengthRadius
        nominalL := body.nominalL, lowerL := body.lowerL, upperL := body.upperL
        nominalR := body.nominalR, lowerR := body.lowerR, upperR := body.upperR, band := body.band
        lifeLimit := body.lifeLimit, lengthWearLimit := body.lengthWearLimit
        radiusWearLimit := body.radiusWearLimit, auditThreshold := min body.auditThreshold 32767
        inUse := old.inUse }
    let tolerance := new.axes ≠ old.axes ∨ new.nominalL ≠ old.nominalL ∨ new.lowerL ≠ old.lowerL
      ∨ new.upperL ≠ old.upperL ∨ new.nominalR ≠ old.nominalR ∨ new.lowerR ≠ old.lowerR ∨ new.upperR ≠ old.upperR
    let judged : Assembly → Bool := fun r => r.type = n
      && decide (r.state ∈ [.partly, .preset, .rejected, .measuring, .issued, .inService])
    let next := (s.generation + 1) % 65536
    let marks := s.sweep.marks + s.assemblies.countP fun e => judged e.2 && !e.2.marked
    let stores := n ≤ 127 ∧ s.sweep.state = .idle ∧ legal ∧ new ≠ old ∧ (new.defined = true ∨ old.inUse = 0)
    (127 < n → exec (.writeType rt n body) s = refused .badIndex (.typeNumber n))
      ∧ (n ≤ 127 → s.sweep.state ≠ .idle → exec (.writeType rt n body) s = refused .busy (.typeNumber n))
      ∧ (n ≤ 127 → s.sweep.state = .idle → ¬legal →
        exec (.writeType rt n body) s = refused .invalidTable (.typeNumber n))
      ∧ (n ≤ 127 → s.sweep.state = .idle → legal → new = old →
        exec (.writeType rt n body) s = refused .noChange (.typeRecord n old))
      ∧ (n ≤ 127 → s.sweep.state = .idle → legal → new ≠ old → new.defined = false → 0 < old.inUse →
        exec (.writeType rt n body) s = refused .state (.typeNumber n))
      ∧ (stores → ¬tolerance →
        exec (.writeType rt n body) s
          = .next (grants (answered (.reply 0x10 rt .ok next (.typeRecord n new))
              { s with types := s.types.setIfInBounds n new, generation := next })))
      ∧ (stores → tolerance →
        exec (.writeType rt n body) s
          = .next (grants (answered (.reply 0x10 rt .ok next (.typeRecord n new))
              { s with
                types := s.types.setIfInBounds n new, generation := next
                assemblies := s.assemblies.map fun e =>
                  (e.1, if judged e.2 then { e.2 with marked := true } else e.2)
                sweep := if 0 < marks then
                    { state := .running, cursor := 0, marks := marks, stepped := 0, otherwise := 0 }
                  else { s.sweep with marks := marks } })))

/-- A step of a RUNNING sweep evaluates the lowest marked assembly at or above the cursor; one that finds none ends the
sweep with SWEEP_DONE; SWEEP_SUSPEND and SWEEP_RESUME stop and resume it, STATE from another state (R34, R35, R36). An
evaluation tests the required axes for completeness and gives BUILT, REMEASURE or PARTIAL when one is not complete; else
the first of CLAMPED, FAIL_LENGTH, FAIL_RADIUS and PASS decides between REJECTED and PRESET (R9, R10). It clears the
mark and applies the outcome by the state: to the state in the crib, to the prior state in the capture slot in
MEASURING, to the recheck flag out of the crib, to nothing in RETIRED (R8, R11). -/
def Obligations.SweepStepsInOrder : Prop :=
  (∀ s : State, TablesCanonical s →
    (s.sweep.state = .running →
        (∀ n r, recordAt s n = some r → r.marked = true → s.sweep.cursor ≤ n →
          (∀ m r', s.sweep.cursor ≤ m → m < n → recordAt s m = some r' → r'.marked = false) →
          exec .sweepStep s = .next (grants { evaluate n s with
              sweep := { s.sweep with
                cursor := n + 1, marks := s.sweep.marks - 1, stepped := s.sweep.stepped + 1 } }))
        ∧ ((∀ m r, s.sweep.cursor ≤ m → recordAt s m = some r → r.marked = false) →
          ∀ i : Instr, i = .sweepStep ∨ i = .sweepEnd → exec i s = .next (grants (notify (.sweepDone s.sweep.stepped s.sweep.otherwise)
            { s with sweep := { s.sweep with state := .idle } }))))
      ∧ ∀ rt, RequestTaken s →
        (s.sweep.state = .running →
            exec (.sweepSuspend rt) s
              = .next (grants (answered
                  (.reply 0x60 rt .ok s.generation (.sweep .suspended s.sweep.cursor s.sweep.marks))
                  { s with sweep := { s.sweep with state := .suspended } })))
          ∧ (s.sweep.state = .suspended →
            exec (.sweepResume rt) s
              = .next (grants (answered
                  (.reply 0x61 rt .ok s.generation (.sweep .running s.sweep.cursor s.sweep.marks))
                  { s with sweep := { s.sweep with state := .running } })))
          ∧ (let refused := fun code : Nat => .next (grants (answered
              (.reply code rt .state s.generation (.sweep s.sweep.state s.sweep.cursor s.sweep.marks)) s))
            (s.sweep.state ≠ .running → exec (.sweepSuspend rt) s = refused 0x60)
              ∧ (s.sweep.state ≠ .suspended → exec (.sweepResume rt) s = refused 0x61)))
    ∧ (∀ (t : TypeRecord) (r : Assembly) (start : AsmState),
      let fresh := fun e : Option Entry => ∃ y, e = some y ∧ y.fresh = true
      let clamped := fun e : Option Entry => ∃ y, e = some y ∧ y.clamped = true
      let outside := fun (e : Option Entry) (nominal lower upper : Int) =>
        ∃ y, e = some y ∧ (y.value - nominal < lower ∨ upper < y.value - nominal)
      let both := t.axes = .lengthRadius
      let allComplete := fresh r.length ∧ (both → fresh r.radius)
      let marked := clamped r.length ∨ (both ∧ clamped r.radius)
      let longOff := outside r.length t.nominalL t.lowerL t.upperL
      let wideOff := both ∧ outside r.radius t.nominalR t.lowerR t.upperR
      (¬allComplete → verdictOf t r = .incomplete
          ∧ (r.length = none → r.radius = none → outcomeOf t r start = .built)
          ∧ (r.length ≠ none ∨ r.radius ≠ none →
            (start = .remeasure → ¬fresh r.length → ¬fresh r.radius → outcomeOf t r start = .remeasure)
              ∧ (start ≠ .remeasure ∨ fresh r.length ∨ fresh r.radius → outcomeOf t r start = .partly)))
        ∧ (allComplete → marked → verdictOf t r = .clamped ∧ outcomeOf t r start = .rejected)
        ∧ (allComplete → ¬marked → longOff → verdictOf t r = .failLength ∧ outcomeOf t r start = .rejected)
        ∧ (allComplete → ¬marked → ¬longOff → wideOff →
          verdictOf t r = .failRadius ∧ outcomeOf t r start = .rejected)
        ∧ (allComplete → ¬marked → ¬longOff → ¬wideOff →
          verdictOf t r = .pass ∧ outcomeOf t r start = .preset))
    ∧ ∀ (s : State) (n : Nat) (r : Assembly), recordAt s n = some r →
      let t := typeAt s r.type
      let stored := fun r' : Assembly => { s with assemblies := tableSet s.assemblies n { r' with marked := false } }
      (r.state = .built ∨ r.state = .partly ∨ r.state = .preset ∨ r.state = .rejected ∨ r.state = .remeasure →
          evaluate n s = stored { r with state := outcomeOf t r r.state })
        ∧ (r.state = .issued ∨ r.state = .inService ∨ r.state = .withdrawn →
          (outcomeOf t r r.state = .preset → evaluate n s = stored r)
            ∧ (outcomeOf t r r.state ≠ .preset → evaluate n s = stored { r with recheck := true }))
        ∧ (r.state = .retired → evaluate n s = stored r)
        ∧ (r.state = .measuring →
          evaluate n s = { stored r with heads := (evaluate n s).heads }
            ∧ (∀ h : Fin 4, armedOn s h ≠ some n → headAt (evaluate n s) h = headAt s h)
            ∧ ∀ (h : Fin 4) (c : Capture), (headAt s h).slot = .armed c → c.assembly = n →
              headAt (evaluate n s) h
                = { headAt s h with slot := .armed { c with prior := outcomeOf t r c.prior } })

/-! ## Assembly records (chapter 1) -/

/-- CREATE, RESTORE, the four EDITs and DELETE of a number above 1023 are answered BAD_INDEX, and of a number that a
hold window covers PROTECTED, which sets the protection-error flag (R12, R22, R180). Past these checks, in order: CREATE
of an occupied slot is STATE, of a type above 127 or not defined BAD_INDEX, with a bound tag TAG_IN_USE; else it places
a BUILT record (R13). DELETE of an empty slot or of an assembly in MEASURING, ISSUED, IN_SERVICE or WITHDRAWN is STATE;
else it empties the slot. The tag map, the in-use count and the mark count follow (R19, R27, R38). A table read after it
was written gives what was written at that key, and elsewhere what it held (R5). -/
def Obligations.CreateAndDeleteTakeEffect : Prop :=
  (∀ (s : State) (i : Instr) (code rt n : Nat), WriteTaken s →
      ((∃ type tag, i = .create rt n type tag) ∧ code = 0x40) ∨ ((∃ b, i = .restore rt n b) ∧ code = 0x41)
        ∨ ((∃ type, i = .changeType rt n type) ∧ code = 0x42) ∨ ((∃ tag, i = .bindTag rt n tag) ∧ code = 0x42)
        ∨ (i = .unbindTag rt n ∧ code = 0x42) ∨ (i = .rebuild rt n ∧ code = 0x42) ∨ (i = .delete rt n ∧ code = 0x43) →
      (1023 < n → exec i s = .next (grants (answered (.reply code rt .badIndex s.generation (.assembly n)) s)))
        ∧ (n ≤ 1023 → isHeld s n = true →
          exec i s
            = .next (grants (answered (.reply code rt .protected_ s.generation (.assembly n))
                { s with protectionError := true }))))
    ∧ (∀ (s : State) (n m : Nat) (r : Assembly),
      recordAt { s with assemblies := tableSet s.assemblies n r } m = (if m = n then some r else recordAt s m)
        ∧ recordAt { s with assemblies := tableErase s.assemblies n } m = if m = n then none else recordAt s m)
    ∧ (∀ (table : Table Nat) (k m v : Nat),
      tableGet (tableSet table k v) m = (if m = k then some v else tableGet table m)
        ∧ tableGet (tableErase table k) m = if m = k then none else tableGet table m)
    ∧ ∀ (s : State) (rt n : Nat), WriteTaken s → n ≤ 1023 → isHeld s n = false →
      let next := (s.generation + 1) % 65536
      let refused := fun (code : Nat) (status : Status) =>
        .next (grants (answered (.reply code rt status s.generation (.assembly n)) s))
      (∀ (type : Nat) (tag : Option Tag),
          (recordAt s n ≠ none → exec (.create rt n type tag) s = refused 0x40 .state)
            ∧ (recordAt s n = none → ¬(type ≤ 127 ∧ (typeAt s type).defined = true) →
              exec (.create rt n type tag) s = refused 0x40 .badIndex)
            ∧ (recordAt s n = none → type ≤ 127 → (typeAt s type).defined = true →
              (∃ x, tag = some x ∧ tableGet s.tagMap x.toNat ≠ none) →
              exec (.create rt n type tag) s = refused 0x40 .tagInUse))
        ∧ ((∀ r, recordAt s n = some r → r.state ∈ [.measuring, .issued, .inService, .withdrawn]) →
          exec (.delete rt n) s = refused 0x43 .state)
        ∧ (∀ (type : Nat) (tag : Option Tag), recordAt s n = none → type ≤ 127 → (typeAt s type).defined = true →
          (∀ x, tag = some x → tableGet s.tagMap x.toNat = none) →
          exec (.create rt n type tag) s
            = .next (grants (answered (.reply 0x40 rt .ok next (.assemblyState n .built))
                { s with
                  assemblies := tableSet s.assemblies n
                    { type := type, tag := tag, state := .built, length := none, radius := none, lifeUsed := 0
                      lengthWear := 0, radiusWear := 0, location := none, marked := false, recheck := false
                      reason := none }
                  tagMap := tag.elim s.tagMap fun x => tableSet s.tagMap x.toNat n
                  types := s.types.setIfInBounds type { typeAt s type with inUse := (typeAt s type).inUse + 1 }
                  generation := next })))
        ∧ ∀ r, recordAt s n = some r → r.state ∉ [.measuring, .issued, .inService, .withdrawn] →
          exec (.delete rt n) s
            = .next (grants (answered (.reply 0x43 rt .ok next (.assembly n))
                { s with
                  assemblies := tableErase s.assemblies n
                  tagMap := r.tag.elim s.tagMap fun x => tableErase s.tagMap x.toNat
                  types := s.types.setIfInBounds r.type
                    { typeAt s r.type with inUse := (typeAt s r.type).inUse - 1 }
                  sweep := if r.marked then
                      { s.sweep with marks := s.sweep.marks - 1, otherwise := s.sweep.otherwise + 1 }
                    else s.sweep
                  generation := next }))

/-- RESTORE: its checks from the third on, in their order, each with its reply (R14); CreateAndDeleteTakeEffect has the
first two. The body is well formed when its codes and yes/no fields are listed ones, its axis values lie in the LU range
and its heads in 0 to 3, its target is not MEASURING or PARTIAL, and entries, reason and location are present as the
target asks. An accepted one stores what the body describes: the entries STALE for REMEASURE; for PRESET and REJECTED
with the outcome of an evaluation from REJECTED; for ISSUED and IN_SERVICE with the recheck flag set when the outcome is
not PRESET (R15). Into an empty slot it binds its tag, counts its type and enters its place in the issue map (R113);
over a record it first gives up the old record's tag, count and mark (R15, R38); over an equal record it is answered
NO_CHANGE. R14 names no range for the two wears: that any value is stored as carried, outside the LU range too, is the
model's reading (log 12). -/
def Obligations.RestoreStoresRecord : Prop :=
  ∀ (s : State) (rt n : Nat) (b : RestoreBody), WriteTaken s → n ≤ 1023 → isHeld s n = false →
    let describes := fun (target : AsmState) (length radius : Option Entry) (recheck : Bool)
        (reason : Option Reason) =>
      let legal := fun e : Option Entry =>
        ∀ y, e = some y → -999999999 ≤ y.value ∧ y.value ≤ 999999999 ∧ y.head ≤ 3
      let sent := fun e : Option Entry => e.map fun y =>
        (⟨y.value, if y.fresh then 0 else 1, if y.clamped then 1 else 0, y.head, bankCode y.bank⟩ : EntryBody)
      b.target = asmStateCode target ∧ target ≠ .measuring ∧ target ≠ .partly ∧ b.length = sent length
        ∧ legal length ∧ b.radius = sent radius ∧ legal radius ∧ b.recheck = (if recheck then 1 else 0)
        ∧ b.reason = reason.map reasonCode ∧ (target = .built → length = none ∧ radius = none)
        ∧ (target = .withdrawn → reason ≠ none) ∧ (target ≠ .withdrawn → target ≠ .retired → reason = none)
        ∧ (b.location ≠ none ↔ target = .issued ∨ target = .inService ∨ target = .withdrawn)
    let wellFormed := ∃ target length radius recheck reason, describes target length radius recheck reason
    let replaceable := ∀ old, recordAt s n = some old →
      old.state ≠ .measuring ∧ old.state ≠ .issued ∧ old.state ≠ .inService ∧ old.state ≠ .withdrawn
    let usable := b.type ≤ 127 ∧ (typeAt s b.type).defined = true
    let untaken := ∀ x, b.tag = some x →
      tableGet s.tagMap x.toNat = none ∨ tableGet s.tagMap x.toNat = some n
    let inMagazine := fun p : Place =>
      ∃ x, machineAt s p.machine = some x ∧ x.defined = true ∧ 1 ≤ p.pocket ∧ p.pocket ≤ x.magazine
    let refused := fun status : Status =>
      grants (answered (.reply 0x41 rt status s.generation (.assembly n)) s)
    (¬replaceable → exec (.restore rt n b) s = .next (refused .state))
      ∧ (replaceable → ¬wellFormed → exec (.restore rt n b) s = .next (refused .invalidTable))
      ∧ (replaceable → wellFormed → ¬usable → exec (.restore rt n b) s = .next (refused .badIndex))
      ∧ (replaceable → wellFormed → usable → ¬untaken → exec (.restore rt n b) s = .next (refused .tagInUse))
      ∧ (replaceable → wellFormed → usable → untaken → ∀ p, b.location = some p →
        (¬inMagazine p → exec (.restore rt n b) s = .next (refused .badIndex))
          ∧ (inMagazine p → occupant s p ≠ none → exec (.restore rt n b) s = .next (refused .state)))
      ∧ ∀ (target : AsmState) (length radius : Option Entry) (recheck : Bool) (reason : Option Reason),
        describes target length radius recheck reason → replaceable → usable → untaken →
        (∀ p, b.location = some p → inMagazine p ∧ occupant s p = none) →
        let next := (s.generation + 1) % 65536
        let stale := fun e : Option Entry =>
          if target = .remeasure then e.map fun y => { y with fresh := false } else e
        let given : Assembly :=
          { type := b.type, tag := b.tag, state := target, length := stale length, radius := stale radius
            lifeUsed := b.lifeUsed, lengthWear := b.lengthWear, radiusWear := b.radiusWear
            location := b.location, marked := false, recheck := recheck, reason := reason }
        let t := typeAt s b.type
        let new : Assembly :=
          if target = .preset ∨ target = .rejected then { given with state := outcomeOf t given .rejected }
          else if target = .issued ∨ target = .inService then
            { given with recheck := recheck || decide (outcomeOf t given target ≠ .preset) }
          else given
        (recordAt s n = none →
            exec (.restore rt n b) s
              = .next (grants (answered (.reply 0x41 rt .ok next (.assemblyState n new.state))
                  { s with
                    assemblies := tableSet s.assemblies n new
                    tagMap := b.tag.elim s.tagMap fun x => tableSet s.tagMap x.toNat n
                    types := s.types.setIfInBounds b.type
                      { typeAt s b.type with inUse := (typeAt s b.type).inUse + 1 }
                    issueMap := b.location.elim s.issueMap fun p => tableSet s.issueMap (placeKey p) n
                    generation := next })))
          ∧ (recordAt s n = some new →
            exec (.restore rt n b) s
              = .next (grants (answered
                  (.reply 0x41 rt .noChange s.generation (.assemblyState n new.state)) s)))
          ∧ ∀ old, recordAt s n = some old → old ≠ new →
            exec (.restore rt n b) s
              = .next (grants (answered (.reply 0x41 rt .ok next (.assemblyState n new.state))
                  { s with
                    assemblies := tableSet s.assemblies n new
                    tagMap :=
                      let freed := old.tag.elim s.tagMap fun x => tableErase s.tagMap x.toNat
                      b.tag.elim freed fun x => tableSet freed x.toNat n
                    types := (countIn b.type (countOut old.type s)).types
                    sweep := if old.marked then
                        { s.sweep with marks := s.sweep.marks - 1, otherwise := s.sweep.otherwise + 1 }
                      else s.sweep
                    issueMap := b.location.elim s.issueMap fun p => tableSet s.issueMap (placeKey p) n
                    generation := next }))

/-- The four edits, past the checks that CreateAndDeleteTakeEffect states: STATE for an empty slot or an assembly in
MEASURING, ISSUED, IN_SERVICE or WITHDRAWN; then BAD_INDEX for a type above 127 or not defined, TAG_IN_USE for a tag
bound to another assembly, STATE for an assembly with a different tag or, at REBUILD, one that is not RETIRED; nothing
is reviewed. An accepted edit acts after the review on demand, which evaluates a marked record (the evaluation of
SweepStepsInOrder) and counts its mark as cleared otherwise: CHANGE_TYPE evaluates against the new type, BIND_TAG and
UNBIND_TAG change the tag and the tag map, REBUILD makes a RETIRED record BUILT (R16, R17, R18, R37). CHANGE_TYPE to its
own type, BIND_TAG of its own tag and UNBIND_TAG without one are answered NO_CHANGE: the review stands and the
generation does not advance. -/
def Obligations.EditsTakeEffect : Prop :=
  (∀ (s : State) (n : Nat),
      let marked := ∃ r, recordAt s n = some r ∧ r.marked = true
      (¬marked → reviewOnDemand n s = s)
        ∧ (marked → reviewOnDemand n s
          = { evaluate n s with
              sweep := { s.sweep with marks := s.sweep.marks - 1, otherwise := s.sweep.otherwise + 1 } }))
    ∧ (∀ (s : State) (t m : Nat),
      let stored := fun (n : Nat) (r : TypeRecord) => { s with types := s.types.setIfInBounds n r }
      countIn t s = stored t { typeAt s t with inUse := (typeAt s t).inUse + 1 }
        ∧ countOut t s = stored t { typeAt s t with inUse := (typeAt s t).inUse - 1 }
        ∧ ∀ r, t ≤ 127 → typeAt (stored t r) m = if m = t then r else typeAt s m)
    ∧ (∀ (s : State) (rt n : Nat), WriteTaken s → n ≤ 1023 → isHeld s n = false →
      let refused := fun status : Status =>
        .next (grants (answered (.reply 0x42 rt status s.generation (.assembly n)) s))
      let bound := fun tag : Tag => tableGet s.tagMap tag.toNat
      ((∀ r, recordAt s n = some r → r.state ∈ [.measuring, .issued, .inService, .withdrawn]) →
          (∀ type, exec (.changeType rt n type) s = refused .state)
            ∧ (∀ tag, exec (.bindTag rt n tag) s = refused .state)
            ∧ exec (.unbindTag rt n) s = refused .state ∧ exec (.rebuild rt n) s = refused .state)
        ∧ ∀ r, recordAt s n = some r → r.state ∉ [.measuring, .issued, .inService, .withdrawn] →
          (∀ type, ¬(type ≤ 127 ∧ (typeAt s type).defined = true) →
              exec (.changeType rt n type) s = refused .badIndex)
            ∧ (∀ tag, (∃ k, bound tag = some k ∧ k ≠ n) → exec (.bindTag rt n tag) s = refused .tagInUse)
            ∧ (∀ tag, (bound tag = none ∨ bound tag = some n) → r.tag ≠ none → r.tag ≠ some tag →
              exec (.bindTag rt n tag) s = refused .state)
            ∧ (r.state ≠ .retired → exec (.rebuild rt n) s = refused .state))
    ∧ ∀ (s : State) (rt n : Nat) (old r : Assembly), WriteTaken s → n ≤ 1023 → isHeld s n = false →
      recordAt s n = some old → old.state ∉ [.measuring, .issued, .inService, .withdrawn] →
      let next := (s.generation + 1) % 65536
      let u := reviewOnDemand n s
      recordAt u n = some r →
      let unchanged := .next (grants (answered (.reply 0x42 rt .noChange s.generation (.assemblyState n r.state)) u))
      (∀ type, type ≤ 127 → (typeAt s type).defined = true → old.type ≠ type →
          let moved : Assembly :=
            if r.state = .retired then { r with type := type, marked := false }
            else { r with type := type, state := outcomeOf (typeAt s type) r r.state, marked := false }
          exec (.changeType rt n type) s
            = .next (grants (answered
                (.reply 0x42 rt .ok next
                  (.assemblyState n moved.state))
                { u with
                  assemblies := tableSet u.assemblies n moved
                  types := (countIn type (countOut old.type s)).types
                  generation := next })))
        ∧ (old.type ≤ 127 → (typeAt s old.type).defined = true → exec (.changeType rt n old.type) s = unchanged)
        ∧ (∀ tag : Tag, old.tag = none → tableGet s.tagMap tag.toNat = none →
          exec (.bindTag rt n tag) s
            = .next (grants (answered (.reply 0x42 rt .ok next (.assemblyState n r.state))
                { u with
                  assemblies := tableSet u.assemblies n { r with tag := some tag }
                  tagMap := tableSet s.tagMap tag.toNat n
                  generation := next })))
        ∧ (∀ tag : Tag, old.tag = some tag → tableGet s.tagMap tag.toNat = some n →
          exec (.bindTag rt n tag) s = unchanged)
        ∧ (∀ tag : Tag, old.tag = some tag →
          exec (.unbindTag rt n) s
            = .next (grants (answered (.reply 0x42 rt .ok next (.assemblyState n r.state))
                { u with
                  assemblies := tableSet u.assemblies n { r with tag := none }
                  tagMap := tableErase s.tagMap tag.toNat
                  generation := next })))
        ∧ (old.tag = none → exec (.unbindTag rt n) s = unchanged)
        ∧ (old.state = .retired →
          exec (.rebuild rt n) s
            = .next (grants (answered (.reply 0x42 rt .ok next (.assemblyState n .built))
                { u with
                  assemblies := tableSet u.assemblies n
                    { r with
                      state := .built, length := none, radius := none, reason := none, lifeUsed := 0
                      lengthWear := 0, radiusWear := 0, recheck := false }
                  generation := next })))

/-- WRITE_HOLDS is refused LOCKED where the protection check fails; a window number above 3 is then answered BAD_INDEX
and a field out of range INVALID_TABLE; otherwise the base is aligned down, and an unchanged window is answered
NO_CHANGE, another one stored, either with the four windows (R21). That the refusals LOCKED, BAD_INDEX and INVALID_TABLE
carry the generation alone is the model's choice (log 11). A number is held when some window covers it. A window covers
exactly its range or, with complement, the numbers of the table outside it (R22). -/
def Obligations.HoldWindowsAreStored : Prop :=
  (∀ (s : State) (rt w : Nat) (b : HoldBody), RequestTaken s → protectionPasses s = false →
      exec (.writeHolds rt w b) s
        = .next (grants (answered (.reply 0x50 rt .locked s.generation .none) { s with protectionError := true })))
    ∧ (∀ (s : State) (rt w : Nat) (b : HoldBody), WriteTaken s →
      let size := 2 ^ b.exponent
      let legal := b.enabled ≤ 1 ∧ b.complement ≤ 1 ∧ b.base ≤ 1023 ∧ b.exponent ≤ 10
      let new : HoldWindow := ⟨b.enabled = 1, b.base - b.base % size, b.exponent, b.complement = 1⟩
      (3 < w →
          exec (.writeHolds rt w b) s = .next (grants (answered (.reply 0x50 rt .badIndex s.generation .none) s)))
        ∧ (w ≤ 3 → ¬legal →
          exec (.writeHolds rt w b) s
            = .next (grants (answered (.reply 0x50 rt .invalidTable s.generation .none) s)))
        ∧ (legal → s.holds[w]? = some new →
          exec (.writeHolds rt w b) s
            = .next (grants (answered (.reply 0x50 rt .noChange s.generation (.windows s.holds.toList)) s)))
        ∧ (w ≤ 3 → legal → s.holds[w]? ≠ some new →
          exec (.writeHolds rt w b) s
            = .next (grants (answered
                (.reply 0x50 rt .ok ((s.generation + 1) % 65536) (.windows (s.holds.setIfInBounds w new).toList))
                { s with
                  holds := s.holds.setIfInBounds w new, generation := (s.generation + 1) % 65536 }))))
    ∧ (∀ (s : State) (n : Nat), isHeld s n = true ↔ ∃ w ∈ s.holds.toList, covers w n = true)
    ∧ ∀ (w : HoldWindow) (n : Nat), n < 1024 →
        (covers w n = true ↔ w.enabled = true
          ∧ (if w.complement then n < w.base ∨ w.base + 2 ^ w.exponent ≤ n
             else w.base ≤ n ∧ n < w.base + 2 ^ w.exponent))

/-- Every step keeps the three tables canonical, every queue within its places, every counter within its width, the
audit value in 1 to 32,767, the stored types within their ranges, the hold windows aligned and the machine
definitions legal (R1, R5, R21, R25, R101, R114, R119, R138, R142, R166, R174, R177, R181, R186). -/
def Obligations.StoresAndCountsStayInRange : Prop :=
  ∀ s t : State, step s = .next t →
    (TablesCanonical s → TablesCanonical t) ∧ (CountsInRange s → CountsInRange t) ∧ (StoresLegal s → StoresLegal t)

/-- Every step keeps the tag map and the records' tags in agreement, each in-use count equal to the number of records
of its type with every record's type defined, and the mark count equal to the number of marked records, every mark
at or above the cursor, with no mark in an IDLE sweep (R5, R26, R27, R33 to R35, R37, R38, R40). -/
def Obligations.TagsTypesAndMarksStayCounted : Prop :=
  ∀ s t : State, TablesCanonical s → step s = .next t →
    (TagsMatch s → TagsMatch t) ∧ (TypesCounted s → TypesCounted t) ∧ (MarksCounted s → MarksCounted t)

/-- Every step keeps the issue map and the records in agreement, the optional fields as the state wants them, and
every entry in the magazine of a defined machine (R2, R101). -/
def Obligations.PlacesStayMatched : Prop :=
  ∀ s t : State, TablesCanonical s → CapturesMatch s → StoresLegal s → PlacesMatch s → MagazinesHold s →
    step s = .next t → PlacesMatch t ∧ MagazinesHold t

/-- Every step keeps it so that every unmarked PRESET assembly has all the axes its type requires present, fresh,
unclamped and within tolerance (R10). -/
def Obligations.PresetStaysSound : Prop :=
  ∀ s t : State, TablesCanonical s → CapturesMatch s → PresetSound s → step s = .next t → PresetSound t

/-- No assembly covered by an enabled hold window passes from any other state into ISSUED or MEASURING (R22). -/
def Obligations.HeldAssembliesStayPut : Prop :=
  ∀ (s t : State) (n : Nat) (r' : Assembly), CapturesMatch s → step s = .next t → isHeld s n = true →
    recordAt t n = some r' → r'.state = .issued ∨ r'.state = .measuring →
      ∃ r, recordAt s n = some r ∧ r.state = r'.state

/-! ## Issue and return (chapter 6) -/

/-- An ISSUE that passes its seven checks is granted: the map entry, the location and ISSUED in one change, the answer
GRANTED, and with push-on-issue a handoff request (R103 to R107). The entry stands at its own place in the map and at no
other (R101). -/
def Obligations.IssueIsGranted : Prop :=
  (∀ (s : State) (n : Nat) (p q : Place), p.pocket ≤ 240 → q.pocket ≤ 240 →
      occupant { s with issueMap := tableSet s.issueMap (placeKey p) n } q
        = if q = p then some n else occupant s q)
    ∧ ∀ (s : State) (c : Fin 4) (tag : Tag) (m p n : Nat) (old r : Assembly) (x : MachineDef),
    let u := reviewOnDemand n s
    RequestTaken s → tableGet s.tagMap tag.toNat = some n → recordAt s n = some old → isHeld s n = false →
    recordAt u n = some r → r.state = .preset →
    ((typeAt s r.type).lifeLimit = 0 ∨ r.lifeUsed < (typeAt s r.type).lifeLimit) →
    machineAt s m = some x → x.defined = true → 1 ≤ p → p ≤ x.magazine → occupant s ⟨m, p⟩ = none →
      let granted : State :=
        { u with
          issueMap := tableSet s.issueMap (placeKey ⟨m, p⟩) n
          assemblies := tableSet u.assemblies n { r with state := .issued, location := some ⟨m, p⟩ } }
      exec (.issue c tag m p) s
        = .next (grants (answered
            (.issueAnswer c
              { action := .issue, tag := tag, status := .granted, assembly := some n, place := some ⟨m, p⟩
                actual := none, location := none, life := none, occupying := none, reason := none, draw := none })
            (if x.push then placeRequest ⟨m, p⟩ .pushOnIssue (some n) granted else granted)))

/-- A TAG frame that fails a check is answered with the first check that fails and that status's fields, and changes
nothing but for the review on demand that comes after check 2 of an ISSUE (R37, R104, R105, R108). -/
def Obligations.TagFramesAreRefused : Prop :=
  ∀ (s : State) (c : Fin 4) (tag : Tag) (m p : Nat), RequestTaken s →
    let bare := fun (action : TagAction) (status : AnswerStatus) (place : Option Place) (n : Option Nat) =>
      ({ action := action, tag := tag, status := status, assembly := n, place := place, actual := none
         location := none, life := none, occupying := none, reason := none, draw := none } : IssueAnswer)
    let here : Option Place := some ⟨m, p⟩
    (tableGet s.tagMap tag.toNat = none →
        exec (.issue c tag m p) s
            = .next (grants (answered (.issueAnswer c (bare .issue .unknownTag here none)) s))
          ∧ exec (.returnHolder c tag) s
            = .next (grants (answered (.issueAnswer c (bare .return_ .unknownTag none none)) s)))
      ∧ ∀ n old, tableGet s.tagMap tag.toNat = some n → recordAt s n = some old →
        let u := reviewOnDemand n s
        (outOfCrib old.state = false →
            exec (.returnHolder c tag) s
              = .next (grants (answered
                  (.issueAnswer c { bare .return_ .notIssued none (some n) with actual := some old.state }) s)))
          ∧ (isHeld s n = true →
            exec (.issue c tag m p) s
              = .next (grants (answered (.issueAnswer c (bare .issue .held here (some n))) s)))
          ∧ (isHeld s n = false → ∀ r, recordAt u n = some r →
            (r.state ≠ .preset →
                exec (.issue c tag m p) s
                  = .next (grants (answered
                      (.issueAnswer c
                        { bare .issue .notReady here (some n) with
                          actual := some r.state, location := if outOfCrib r.state then r.location else none }) u)))
              ∧ (r.state = .preset → (typeAt s r.type).lifeLimit ≠ 0 → (typeAt s r.type).lifeLimit ≤ r.lifeUsed →
                exec (.issue c tag m p) s
                  = .next (grants (answered
                      (.issueAnswer c
                        { bare .issue .lifeSpent here (some n) with
                          life := some (r.lifeUsed, (typeAt s r.type).lifeLimit) }) u)))
              ∧ (r.state = .preset →
                ((typeAt s r.type).lifeLimit = 0 ∨ r.lifeUsed < (typeAt s r.type).lifeLimit) →
                (machineDefined s m = false →
                    exec (.issue c tag m p) s
                      = .next (grants (answered (.issueAnswer c (bare .issue .unknownMachine here (some n))) u)))
                  ∧ ∀ x, machineAt s m = some x → x.defined = true →
                    ((p = 0 ∨ x.magazine < p) →
                        exec (.issue c tag m p) s
                          = .next (grants (answered (.issueAnswer c (bare .issue .badPocket here (some n))) u)))
                      ∧ ∀ a, 1 ≤ p → p ≤ x.magazine → occupant s ⟨m, p⟩ = some a →
                        exec (.issue c tag m p) s
                          = .next (grants (answered
                              (.issueAnswer c
                                { bare .issue .pocketOccupied here (some n) with occupying := some a }) u))))

/-- The outcome of an accepted return is the first line of the table of R110 that holds. With it: an accepted RETURN or
FORCE_RETURN removes the map entry, steps the generator and voids the SERVED frames that name the assembly (R109, R111,
R112, R146). FORCE_RETURN of a number above 1023 is BAD_INDEX, of an assembly not ISSUED, IN_SERVICE or WITHDRAWN STATE
(R112). And in every state SEED_AUDIT stores its value, 0 as 1, and is answered NO_CHANGE for the value that the
generator holds, above 32,767 INVALID_TABLE (R115). That these three refusals carry the generation alone is the model's
choice (log 11). A record out of the crib always has a location (PlacesStayMatched); for one without, the notice and the
reply of FORCE_RETURN name machine 0, pocket 0 by the model's choice (log 19). -/
def Obligations.ReturnsAreAccepted : Prop :=
  (∀ (s : State) (n : Nat) (r : Assembly), recordAt s n = some r → outOfCrib r.state = true →
    let draw := auditStep s.audit
    let t := typeAt s r.type
    let place := r.location.getD ⟨0, 0⟩
    let selected := r.state ≠ .withdrawn ∧ r.recheck = false ∧ 1 ≤ t.auditThreshold ∧ draw.toNat ≤ t.auditThreshold
    let state : AsmState :=
      if r.state = .withdrawn then .retired else if r.recheck = true ∨ selected then .remeasure else .preset
    let status : AnswerStatus :=
      if r.state = .withdrawn then .returnedRetired
      else if r.recheck = true ∨ selected then .returnedRemeasure else .returnedPreset
    let back : State :=
      { s with
        issueMap := s.issueMap.filter (fun e => e.2 ≠ n), audit := draw
        handoff := s.handoff.map fun f =>
          match f.content with
          | .served a _ _ => if a = n then { f with void := true } else f
          | _ => f
        assemblies := tableSet s.assemblies n
          { r with
            state := state, location := none, recheck := false
            length := if state = .remeasure then r.length.map fun e => { e with fresh := false } else r.length
            radius := if state = .remeasure then r.radius.map fun e => { e with fresh := false } else r.radius } }
    let reason := if r.state = .withdrawn then r.reason else none
    (∀ (c : Fin 4) (tag : Tag), RequestTaken s → tableGet s.tagMap tag.toNat = some n →
        exec (.returnHolder c tag) s
          = .next (grants (answered
              (.issueAnswer c
                { action := .return_, tag := tag, status := status, assembly := some n, place := r.location
                  actual := none, location := none, life := none, occupying := none, reason := reason
                  draw := some draw.toNat })
              (if selected then
                notify (.auditSelected n r.type draw.toNat t.auditThreshold place (some c)) back
              else back))))
      ∧ ∀ rt, WriteTaken s → n ≤ 1023 →
        exec (.forceReturn rt n) s
          = .next (grants (answered
              (.reply 0x45 rt .ok ((s.generation + 1) % 65536)
                (.forcedReturn n place draw.toNat status state reason))
              { (if selected then
                  notify (.auditSelected n r.type draw.toNat t.auditThreshold place none) back
                else back) with generation := (s.generation + 1) % 65536 })))
    ∧ (∀ r : Assembly, outOfCrib r.state = true ↔ r.state = .issued ∨ r.state = .inService ∨ r.state = .withdrawn)
    ∧ (∀ (s : State) (rt n : Nat), WriteTaken s →
      let refused := fun (code : Nat) (status : Status) =>
        .next (grants (answered (.reply code rt status s.generation .none) s))
      (1023 < n → exec (.forceReturn rt n) s = refused 0x45 .badIndex)
        ∧ (n ≤ 1023 → (∀ r, recordAt s n = some r → outOfCrib r.state = false) →
          exec (.forceReturn rt n) s = refused 0x45 .state)
        ∧ (32767 < n → exec (.seedAudit rt n) s = refused 0x51 .invalidTable))
    ∧ ∀ (s : State) (rt value : Nat), WriteTaken s → value ≤ 32767 →
      let v : BitVec 15 := if value = 0 then 1 else BitVec.ofNat 15 value
      (v ≠ s.audit →
          exec (.seedAudit rt value) s
            = .next (grants (answered (.reply 0x51 rt .ok ((s.generation + 1) % 65536) (.audit v.toNat))
                { s with audit := v, generation := (s.generation + 1) % 65536 })))
        ∧ (v = s.audit →
          exec (.seedAudit rt value) s
            = .next (grants (answered (.reply 0x51 rt .noChange s.generation (.audit v.toNat)) s)))

/-- A step of the audit generator moves the places up and feeds the exclusive-or of places 14 and 13 in; from 1 to
32,767 it stays there, and every such value follows from every other within 32,767 steps (R114). -/
def Obligations.AuditRunsThroughAllValues : Prop :=
  (∀ (v : BitVec 15) (k : Nat), k < 14 → (auditStep v).getLsbD (k + 1) = v.getLsbD k)
    ∧ (∀ v : BitVec 15, (auditStep v).getLsbD 0 = (v.getLsbD 14 ^^ v.getLsbD 13))
    ∧ ∀ v w : BitVec 15, v ≠ 0 → w ≠ 0 → ∃ k < 32767, auditStep^[k] v = w

/-! ## Machines and handoff (chapters 7 and 8) -/

/-- R140: a handoff request of any origin folds into an equal waiting entry, joins the end of the list unmarked, or at
32 entries is discarded, counted and reported; DATA_REQUEST makes one (R139). -/
def Obligations.HandoffRequestFoldsOrJoins : Prop :=
  (∀ (s : State) (p : Place) (origin : Origin) (assembly : Option Nat),
    let waits := ∃ e ∈ s.waitList, e.machine = p.machine ∧ e.pocket = p.pocket
    (waits → placeRequest p origin assembly s = s)
      ∧ (¬waits → s.waitList.length < 32 →
        placeRequest p origin assembly s = { s with waitList := s.waitList ++ [⟨p.machine, p.pocket, false⟩] })
      ∧ (¬waits → 32 ≤ s.waitList.length →
        placeRequest p origin assembly s
          = notify (.requestDropped p.machine p.pocket origin assembly)
              { s with handoffDropped := tally s.handoffDropped }))
    ∧ ∀ (s : State) (m p : Nat), s.resetPin = false → machineDefined s m = true → 1 ≤ p → p ≤ 240 →
      exec (.dataRequest m p) s = .next (grants (placeRequest ⟨m, p⟩ .dataRequest none (heard .hall s)))

/-- A take needs room in the handoff FIFO and removes the oldest eligible entry: its machine is not paused, and no
profile switch is pending on it or the entry carries the pre-switch mark (R141, R143). It builds one frame with the
first status that holds: EMPTY where the issue map names no assembly, NO_PROFILE where the machine's active bank is
invalid, LOCKED where the assembly is WITHDRAWN, SERVED; the last two carry the assembly, the active bank and every slot
of its profile, formatted with that bank's gauge-line offset (R124, R144, R145; SlotValuesFitTheirWidth gives a slot).
The take of a marked entry lowers the marked count and at the last completes the switch, which is the row AT_DRAIN
(R134; log 4 for the row). -/
def Obligations.TakeServesOldestEligible : Prop :=
  ∀ (s : State) (before after : List WaitEntry) (e : WaitEntry) (x : MachineDef),
    let held := fun w : WaitEntry => ∃ y, machineAt s w.machine = some y
      ∧ (y.paused = true ∨ (y.switch ≠ none ∧ w.marked = false))
    s.handoff.length < 4 → s.waitList = before ++ e :: after → (∀ w ∈ before, held w) →
    machineAt s e.machine = some x → x.paused = false → (x.switch = none ∨ e.marked = true) →
    let place : Place := ⟨e.machine, e.pocket⟩
    let builds := fun content : ToolContent =>
      let taken : State :=
        { s with waitList := before ++ after, handoff := s.handoff ++ [⟨e.machine, e.pocket, content, false⟩] }
      (e.marked = false → exec .handoffTake s = .next (grants taken))
        ∧ ∀ w : ProfileSwitch, e.marked = true → x.switch = some w →
          (2 ≤ w.marked →
              exec .handoffTake s = .next (grants
                (putMachine e.machine { x with switch := some { w with marked := w.marked - 1 } } taken)))
            ∧ (w.marked = 1 →
              ∀ i : Instr, i = .handoffTake ∨ i = .atDrain e.machine →
                exec i s = .next (grants
                  (notify (.profileSwitchDone e.machine w.target x.active true w.requested)
                    (putMachine e.machine { x with active := w.target, switch := none } taken))))
    let profile := if x.active = .bankA then x.bankA else x.bankB
    let valid := profile.slots ≠ [] ∧ ∀ y ∈ profile.slots,
      y.source ≤ 9 ∧ 1 ≤ y.width ∧ y.width ≤ 9 ∧ (y.source ≤ 5 → 1 ≤ y.unit ∧ y.unit ≤ 4)
    (occupant s place = none → builds .empty)
      ∧ ∀ (n : Nat) (r : Assembly), occupant s place = some n → recordAt s n = some r →
        let slots := profile.slots.map (formatSlot profile.offset (typeAt s r.type) n r)
        (¬valid → builds .noProfile)
          ∧ (valid → r.state = .withdrawn → builds (.locked n x.active slots))
          ∧ (valid → r.state ≠ .withdrawn → builds (.served n x.active slots))

/-- A slot is sent with the value of its source: the gauge-line offset added for LENGTH, the unit conversion for a
length-kind source, negation, the digit width, blank-zero; an absent source sends no value (R125 to R128). A source code
of 10 or above stands in no valid bank and is sent absent by the model's choice (log 19). The value has magnitude at
most 10^w - 1 for the slot's width, is 0 when blank or absent, and the flags exclude one another. -/
def Obligations.SlotValuesFitTheirWidth : Prop :=
  ∀ (offset : Int) (t : TypeRecord) (n : Nat) (r : Assembly) (slot : OutputSlot),
    let x := formatSlot offset t n r slot
    let lim : Int → Int := fun v => max (-999999999) (min 999999999 v)
    let weight := fun (w : Nat) (holds : Bool) => if holds then w else 0
    let both := decide (t.axes = .lengthRadius)
    let flags := weight 1 (r.length.any fun e => !e.fresh) + weight 2 (r.radius.any fun e => !e.fresh)
      + weight 4 (r.length.isNone || (both && r.radius.isNone))
      + weight 8 (r.length.any (·.clamped) || r.radius.any (·.clamped))
      + weight 16 r.recheck + weight 32 r.marked + weight 64 (decide (r.state = .withdrawn))
    let sourced : Option Int :=
      if slot.source = 0 then r.length.map (·.value)
      else if slot.source = 1 then r.radius.map (·.value)
      else if slot.source = 2 then some r.lengthWear
      else if slot.source = 3 then some r.radiusWear
      else if slot.source = 4 then some t.nominalL
      else if slot.source = 5 then some t.nominalR
      else if slot.source = 6 then
        (if t.lifeLimit = 0 then none else some (max 0 ((t.lifeLimit : Int) - (r.lifeUsed : Int))))
      else if slot.source = 7 then some (n : Int)
      else if slot.source = 8 then some (r.type : Int)
      else if slot.source = 9 then some (flags : Int)
      else none
    (sourced = none →
        x = { width := slot.width, saturated := false, blank := false, absent := true, value := 0 })
      ∧ (∀ v, sourced = some v →
        let sum := v + offset
        let lined := if slot.source = 0 then lim sum else v
        let converted :=
          if 5 < slot.source then lined
          else if slot.unit = 1 then roundHalfOut lined 10
          else if slot.unit = 3 then roundHalfOut (lined * 10) 254
          else if slot.unit = 4 then roundHalfOut (lined * 100) 254
          else lined
        let signed := if slot.negate then -converted else converted
        let top : Int := 10 ^ slot.width - 1
        let cut := max (-top) (min top signed)
        x = { width := slot.width
              saturated := decide ((slot.source = 0 ∧ lim sum ≠ sum) ∨ cut ≠ signed)
              blank := slot.blankZero && decide (cut = 0), absent := false, value := cut })
      ∧ x.value.natAbs ≤ 10 ^ slot.width - 1 ∧ x.width = slot.width
      ∧ (x.blank = true → x.value = 0 ∧ x.absent = false) ∧ (x.absent = true → x.value = 0 ∧ x.saturated = false)
      ∧ (1 ≤ slot.width → ¬(x.saturated = true ∧ x.blank = true))

/-- A matching report adds its minutes, taken as at most 1,000, and replaces the wears, limited to the LU range. Then
the first of BREAK, LIFE and WEAR that holds withdraws an assembly that is ISSUED or IN_SERVICE, with WITHDRAWN and a
handoff request; a report that does not match is counted and reported (R149 to R153). -/
def Obligations.UsageUpdatesOrWithdraws : Prop :=
  ∀ (s : State) (m : Nat) (report : UsageReport), s.resetPin = false → machineDefined s m = true →
    let lim : Int → Int := fun v => max (-999999999) (min 999999999 v)
    let minutes := min report.minutes 1000
    let length := lim report.lengthWear
    let radius := lim report.radiusWear
    let place : Place := ⟨m, report.pocket⟩
    let at_ := if 1 ≤ report.pocket ∧ report.pocket ≤ 240 then occupant s place else none
    (at_ ≠ some report.assembly →
        exec (.usage m report) s
          = .next (grants (notify
              (.usageMismatch m report.pocket report.assembly at_ minutes length radius report.broken)
              { heard .hall s with usageMismatch := tally s.usageMismatch })))
      ∧ ∀ r : Assembly, at_ = some report.assembly → recordAt s report.assembly = some r →
        let used : Assembly :=
          { r with
            lifeUsed := min (r.lifeUsed + minutes) 65535, lengthWear := length, radiusWear := radius }
        let t := typeAt s r.type
        let broken := report.broken = true
        let life := 0 < t.lifeLimit ∧ t.lifeLimit ≤ used.lifeUsed
        let wear := (0 < t.lengthWearLimit ∧ (t.lengthWearLimit < length ∨ length < -t.lengthWearLimit))
          ∨ (0 < t.radiusWearLimit ∧ (t.radiusWearLimit < radius ∨ radius < -t.radiusWearLimit))
        let withdrawn := fun reason : Reason =>
          .next (grants (placeRequest place .withdrawal (some report.assembly)
            (notify
              (.withdrawn report.assembly r.type place reason r.state used.lifeUsed length radius
                t.lifeLimit t.lengthWearLimit t.radiusWearLimit)
              { heard .hall s with
                assemblies := tableSet s.assemblies report.assembly
                  { used with state := .withdrawn, reason := some reason } })))
        (r.state = .withdrawn ∨ (¬broken ∧ ¬life ∧ ¬wear) →
            exec (.usage m report) s = .next (grants
              { heard .hall s with assemblies := tableSet s.assemblies report.assembly used }))
          ∧ (r.state = .issued ∨ r.state = .inService →
            (broken → exec (.usage m report) s = withdrawn .break_)
              ∧ (¬broken → life → exec (.usage m report) s = withdrawn .life)
              ∧ (¬broken → ¬life → wear → exec (.usage m report) s = withdrawn .wear))

/-- DEFINE_MACHINE, its checks in order: a machine outside 1 to 31 is BAD_INDEX; a magazine outside 1 to 240 or a yes/no
field other than 0 (no) and 1 (yes) INVALID_TABLE; an equal body NO_CHANGE; undefining a machine with an entry in the
issue map or a pending switch, or shrinking its magazine below an entry, STATE. Else it stores its three fields and
clears the paused field of a machine it undefines. PAUSE_HANDOFF and RESUME_HANDOFF set and clear the paused field,
BAD_INDEX outside 1 to 31, STATE for a machine that is not defined, NO_CHANGE when the field already stands so (R121,
R122, R147). By the model's choice DEFINE_MACHINE's refusals carry the generation alone (log 11) and its OK reply these
three fields as "the definition as stored" (log 25); the paused field that a BAD_INDEX reply carries has a free value
(log 13). -/
def Obligations.MachineRequestsTakeEffect : Prop :=
  (∀ (s : State) (m : Nat),
      machineAt s m = (if 1 ≤ m then s.machines[m - 1]? else none)
        ∧ (machineDefined s m = true ↔ ∃ x, machineAt s m = some x ∧ x.defined = true)
        ∧ ∀ x, putMachine m x s
          = if 1 ≤ m then { s with machines := s.machines.setIfInBounds (m - 1) x } else s)
    ∧ (∀ (s : State) (rt m : Nat), m = 0 ∨ 31 < m →
      let waiting := s.waitList.countP fun e => e.machine = m
      (∀ b, WriteTaken s →
          exec (.defineMachine rt m b) s
            = .next (grants (answered (.reply 0x30 rt .badIndex s.generation .none) s)))
        ∧ (RequestTaken s →
          let body : ReplyBody := .handoffPaused m (Config.pausedOfNoMachine m) waiting
          exec (.pauseHandoff rt m) s = .next (grants (answered (.reply 0x35 rt .badIndex s.generation body) s))
            ∧ exec (.resumeHandoff rt m) s = .next (grants (answered (.reply 0x36 rt .badIndex s.generation body) s))))
    ∧ ∀ (s : State) (rt m : Nat) (x : MachineDef), machineAt s m = some x →
      let waiting := s.waitList.countP fun e => e.machine = m
      (∀ b : MachineBody, WriteTaken s →
          let legal := b.defined ≤ 1 ∧ b.push ≤ 1 ∧ 1 ≤ b.magazine ∧ b.magazine ≤ 240
          let defined := decide (b.defined = 1)
          let push := decide (b.push = 1)
          let equal := defined = x.defined ∧ b.magazine = x.magazine ∧ push = x.push
          let endsClear := x.defined = true → defined = false →
            (∀ e ∈ s.issueMap, e.1 / 256 = m → e.1 % 256 = 0) ∧ x.switch = none
          let shrinksClear := x.defined = true → defined = true → b.magazine < x.magazine →
            ∀ e ∈ s.issueMap, e.1 / 256 = m → e.1 % 256 ≤ b.magazine
          let refused := fun status : Status =>
            .next (grants (answered (.reply 0x30 rt status s.generation .none) s))
          (¬legal → exec (.defineMachine rt m b) s = refused .invalidTable)
            ∧ (legal → equal → exec (.defineMachine rt m b) s = refused .noChange)
            ∧ (legal → ¬equal → ¬(endsClear ∧ shrinksClear) → exec (.defineMachine rt m b) s = refused .state)
            ∧ (legal → ¬equal → endsClear → shrinksClear →
              exec (.defineMachine rt m b) s
                = .next (grants (answered
                    (.reply 0x30 rt .ok ((s.generation + 1) % 65536) (.definition defined b.magazine push))
                    { putMachine m
                        { x with
                          defined := defined, magazine := b.magazine, push := push
                          paused := if x.defined = true ∧ defined = false then false else x.paused } s with
                      generation := (s.generation + 1) % 65536 }))))
        ∧ (RequestTaken s →
          let answer := fun (code : Nat) (status : Status) (paused : Bool) (u : State) =>
            .next (grants (answered (.reply code rt status s.generation (.handoffPaused m paused waiting)) u))
          (x.defined = false →
              exec (.pauseHandoff rt m) s = answer 0x35 .state x.paused s
                ∧ exec (.resumeHandoff rt m) s = answer 0x36 .state x.paused s)
            ∧ (x.defined = true → x.paused = true →
              exec (.pauseHandoff rt m) s = answer 0x35 .noChange true s
                ∧ exec (.resumeHandoff rt m) s = answer 0x36 .ok false (putMachine m { x with paused := false } s))
            ∧ (x.defined = true → x.paused = false →
              exec (.pauseHandoff rt m) s = answer 0x35 .ok true (putMachine m { x with paused := true } s)
                ∧ exec (.resumeHandoff rt m) s = answer 0x36 .noChange false s))

/-- The profile requests, each with its checks in order. A machine outside 1 to 31 or a bank code other than 0 (A) and 1
(B) is BAD_INDEX. WRITE_PROFILE: a field outside its storage range (R123) or a list not of its count is INVALID_TABLE, a
valid active bank ACTIVE_BANK, the target of a pending switch BUSY, equal content NO_CHANGE; another body is stored
(R130, R131). SWITCH_PROFILE: the active bank is REDUNDANT, which cancels a pending switch with its marks and without a
notice; an invalid bank is INVALID_TABLE with its reason, SLOT_COUNT without a slot, else that of the first failing
slot, the first of SOURCE, WIDTH and UNIT with its position (R124); the target already pending is OK and changes
nothing; none of these advances the generation (R132). Else it completes at once when no entry of the machine waits, or
marks every waiting entry and becomes pending (R133, R136). CANCEL_PROFILE_SWITCH removes the switch and its marks,
STATE without one (R135). That the refusals for which no field is named here, and the OK to a switch already pending,
carry the generation alone is the model's choice (log 11). -/
def Obligations.ProfileRequestsTakeEffect : Prop :=
  (∀ p : Profile,
      let known := fun y : OutputSlot => y.source ≤ 9
      let wide := fun y : OutputSlot => 1 ≤ y.width ∧ y.width ≤ 9
      let scaled := fun y : OutputSlot => y.source ≤ 5 → 1 ≤ y.unit ∧ y.unit ≤ 4
      let sound := fun y : OutputSlot => known y ∧ wide y ∧ scaled y
      (p.slots = [] → profileReason p = some .slotCount)
        ∧ (p.slots ≠ [] → (∀ y ∈ p.slots, sound y) → profileReason p = none)
        ∧ ∀ (before after : List OutputSlot) (y : OutputSlot), p.slots = before ++ y :: after →
          (∀ z ∈ before, sound z) →
          (¬known y → profileReason p = some (.source (before.length + 1)))
            ∧ (known y → ¬wide y → profileReason p = some (.width (before.length + 1)))
            ∧ (known y → wide y → ¬scaled y → profileReason p = some (.unit (before.length + 1))))
    ∧ (∀ (s : State) (rt m code : Nat), WriteTaken s →
      let outOfRange := fun request : Nat => .next (grants (answered (.reply request rt .badIndex s.generation .none) s))
      (m = 0 ∨ 31 < m ∨ 1 < code →
          (∀ body, exec (.writeProfile rt m code body) s = outOfRange 0x31)
            ∧ exec (.switchProfile rt m code) s = outOfRange 0x33)
        ∧ (m = 0 ∨ 31 < m → exec (.cancelProfileSwitch rt m) s = outOfRange 0x34))
    ∧ ∀ (s : State) (rt m : Nat) (x : MachineDef), WriteTaken s → machineAt s m = some x →
      let next := (s.generation + 1) % 65536
      let waiting := s.waitList.countP fun e => e.machine = m
      let remarked := fun mark : Bool =>
        s.waitList.map fun e => if e.machine = m then { e with marked := mark } else e
      let refused := fun (request : Nat) (status : Status) (body : ReplyBody) =>
        .next (grants (answered (.reply request rt status s.generation body) s))
      (∀ b : Bank,
          let code := if b = .bankA then 0 else 1
          let old := if b = .bankA then x.bankA else x.bankB
          (∀ body : ProfileBody,
              let storable := body.count ≤ 12 ∧ body.slots.length = body.count
                ∧ -999999999 ≤ body.offset ∧ body.offset ≤ 999999999
                ∧ ∀ y ∈ body.slots, y.source ≤ 15 ∧ y.unit ≤ 7 ∧ y.width ≤ 15 ∧ y.negate ≤ 1 ∧ y.blankZero ≤ 1
              let content : Profile :=
                { slots := body.slots.map fun y =>
                    ⟨y.source, y.unit, y.width, decide (y.negate = 1), decide (y.blankZero = 1)⟩
                  offset := body.offset }
              let stored := if b = .bankA then { x with bankA := content } else { x with bankB := content }
              let inUse := x.active = b ∧ profileReason old = none
              let targeted := x.active ≠ b ∧ ∃ w, x.switch = some w ∧ w.target = b
              (¬storable → exec (.writeProfile rt m code body) s = refused 0x31 .invalidTable .none)
                ∧ (storable → inUse → exec (.writeProfile rt m code body) s = refused 0x31 .activeBank .none)
                ∧ (storable → targeted → exec (.writeProfile rt m code body) s = refused 0x31 .busy .none)
                ∧ (storable → ¬inUse → ¬targeted → content = old →
                  exec (.writeProfile rt m code body) s = refused 0x31 .noChange .none)
                ∧ (storable → ¬inUse → ¬targeted → content ≠ old →
                  exec (.writeProfile rt m code body) s
                    = .next (grants (answered
                        (.reply 0x31 rt .ok next (.profileWritten (profileReason content) (x.active = b)))
                        { putMachine m stored s with generation := next }))))
            ∧ (∀ reason, x.active ≠ b → profileReason old = some reason →
              exec (.switchProfile rt m code) s = refused 0x33 .invalidTable (.profileInvalid reason))
            ∧ (x.active = b → x.switch = none →
              exec (.switchProfile rt m code) s
                = .next (grants (answered (.reply 0x33 rt .redundant s.generation (.redundant none)) s)))
            ∧ (∀ w, x.active = b → x.switch = some w →
              exec (.switchProfile rt m code) s
                = .next (grants (answered (.reply 0x33 rt .redundant s.generation (.redundant (some w.target)))
                    { putMachine m { x with switch := none } s with waitList := remarked false })))
            ∧ (∀ w, x.active ≠ b → profileReason old = none → x.switch = some w → w.target = b →
              exec (.switchProfile rt m code) s
                = .next (grants (answered (.reply 0x33 rt .ok s.generation .none) s)))
            ∧ (x.active ≠ b → profileReason old = none → (∀ w, x.switch = some w → w.target ≠ b) →
              (∀ e ∈ s.waitList, e.machine ≠ m) →
              exec (.switchProfile rt m code) s
                = .next (grants (answered (.reply 0x33 rt .ok next (.profileSwitched b))
                    (notify (.profileSwitchDone m b x.active false 0)
                      { putMachine m { x with active := b, switch := none } s with generation := next }))))
            ∧ (x.active ≠ b → profileReason old = none → (∀ w, x.switch = some w → w.target ≠ b) →
              (∃ e ∈ s.waitList, e.machine = m) →
              exec (.switchProfile rt m code) s
                = .next (grants (answered (.reply 0x33 rt .ok next (.profilePending b waiting x.active))
                    { putMachine m { x with switch := some ⟨b, waiting, waiting⟩ } s with
                      generation := next, waitList := remarked true }))))
        ∧ (x.switch = none → exec (.cancelProfileSwitch rt m) s = refused 0x34 .state .none)
        ∧ ∀ w, x.switch = some w →
          exec (.cancelProfileSwitch rt m) s
            = .next (grants (answered (.reply 0x34 rt .ok next (.cancelled w.target))
                (notify (.profileSwitchCancelled m w.target w.marked)
                  { putMachine m { x with switch := none } s with
                    generation := next, waitList := remarked false })))

/-- Every step keeps the wait list without two entries of one pair, and every pending profile switch with the number
of its machine's marked entries and a valid target (R119, R130, R133, R134, R138). -/
def Obligations.WaitersStayCounted : Prop :=
  ∀ s t : State, step s = .next t →
    (WaitersDistinct s → WaitersDistinct t) ∧ (SwitchesCounted s → SwitchesCounted t)
end

