-- ==== Sys2Proof/Laws/State.lean ====
section
/-! SUPPORT. One lemma per field and named update: what the field holds after the update. Later proofs cite
these through simp and unfold no record update. -/

set_option Elab.async false

namespace Sys2Proof.Machine

variable (s : State)

/-! ## `putAssembly` -/

@[simp] theorem putAssembly_pending (n : Nat) (r : Assembly) : (putAssembly n r s).pending = s.pending := rfl
@[simp] theorem putAssembly_resetPin (n : Nat) (r : Assembly) : (putAssembly n r s).resetPin = s.resetPin := rfl
@[simp] theorem putAssembly_key (n : Nat) (r : Assembly) : (putAssembly n r s).key = s.key := rfl
@[simp] theorem putAssembly_crib (n : Nat) (r : Assembly) : (putAssembly n r s).crib = s.crib := rfl
@[simp] theorem putAssembly_hall (n : Nat) (r : Assembly) : (putAssembly n r s).hall = s.hall := rfl
@[simp] theorem putAssembly_cribTransit (n : Nat) (r : Assembly) :
    (putAssembly n r s).cribTransit = s.cribTransit := rfl
@[simp] theorem putAssembly_hallTransit (n : Nat) (r : Assembly) :
    (putAssembly n r s).hallTransit = s.hallTransit := rfl
@[simp] theorem putAssembly_cribEgress (n : Nat) (r : Assembly) : (putAssembly n r s).cribEgress = s.cribEgress := rfl
@[simp] theorem putAssembly_hallEgress (n : Nat) (r : Assembly) : (putAssembly n r s).hallEgress = s.hallEgress := rfl
@[simp] theorem putAssembly_guardBlocked (n : Nat) (r : Assembly) :
    (putAssembly n r s).guardBlocked = s.guardBlocked := rfl
@[simp] theorem putAssembly_heads (n : Nat) (r : Assembly) : (putAssembly n r s).heads = s.heads := rfl
@[simp] theorem putAssembly_types (n : Nat) (r : Assembly) : (putAssembly n r s).types = s.types := rfl
@[simp] theorem putAssembly_sweep (n : Nat) (r : Assembly) : (putAssembly n r s).sweep = s.sweep := rfl
@[simp] theorem putAssembly_assemblies (n : Nat) (r : Assembly) :
    (putAssembly n r s).assemblies = tableSet s.assemblies n r := rfl
@[simp] theorem putAssembly_tagMap (n : Nat) (r : Assembly) : (putAssembly n r s).tagMap = s.tagMap := rfl
@[simp] theorem putAssembly_holds (n : Nat) (r : Assembly) : (putAssembly n r s).holds = s.holds := rfl
@[simp] theorem putAssembly_issueMap (n : Nat) (r : Assembly) : (putAssembly n r s).issueMap = s.issueMap := rfl
@[simp] theorem putAssembly_audit (n : Nat) (r : Assembly) : (putAssembly n r s).audit = s.audit := rfl
@[simp] theorem putAssembly_tagDropped (n : Nat) (r : Assembly) : (putAssembly n r s).tagDropped = s.tagDropped := rfl
@[simp] theorem putAssembly_machines (n : Nat) (r : Assembly) : (putAssembly n r s).machines = s.machines := rfl
@[simp] theorem putAssembly_waitList (n : Nat) (r : Assembly) : (putAssembly n r s).waitList = s.waitList := rfl
@[simp] theorem putAssembly_handoff (n : Nat) (r : Assembly) : (putAssembly n r s).handoff = s.handoff := rfl
@[simp] theorem putAssembly_handoffDropped (n : Nat) (r : Assembly) :
    (putAssembly n r s).handoffDropped = s.handoffDropped := rfl
@[simp] theorem putAssembly_usageMismatch (n : Nat) (r : Assembly) :
    (putAssembly n r s).usageMismatch = s.usageMismatch := rfl
@[simp] theorem putAssembly_protection (n : Nat) (r : Assembly) : (putAssembly n r s).protection = s.protection := rfl
@[simp] theorem putAssembly_protectionError (n : Nat) (r : Assembly) :
    (putAssembly n r s).protectionError = s.protectionError := rfl
@[simp] theorem putAssembly_generation (n : Nat) (r : Assembly) : (putAssembly n r s).generation = s.generation := rfl
@[simp] theorem putAssembly_mgmtDropped (n : Nat) (r : Assembly) :
    (putAssembly n r s).mgmtDropped = s.mgmtDropped := rfl
@[simp] theorem putAssembly_answers (n : Nat) (r : Assembly) : (putAssembly n r s).answers = s.answers := rfl
@[simp] theorem putAssembly_notices (n : Nat) (r : Assembly) : (putAssembly n r s).notices = s.notices := rfl
@[simp] theorem putAssembly_discardedNotices (n : Nat) (r : Assembly) :
    (putAssembly n r s).discardedNotices = s.discardedNotices := rfl

/-! ## `putType` -/

@[simp] theorem putType_pending (n : Nat) (r : TypeRecord) : (putType n r s).pending = s.pending := rfl
@[simp] theorem putType_resetPin (n : Nat) (r : TypeRecord) : (putType n r s).resetPin = s.resetPin := rfl
@[simp] theorem putType_key (n : Nat) (r : TypeRecord) : (putType n r s).key = s.key := rfl
@[simp] theorem putType_crib (n : Nat) (r : TypeRecord) : (putType n r s).crib = s.crib := rfl
@[simp] theorem putType_hall (n : Nat) (r : TypeRecord) : (putType n r s).hall = s.hall := rfl
@[simp] theorem putType_cribTransit (n : Nat) (r : TypeRecord) : (putType n r s).cribTransit = s.cribTransit := rfl
@[simp] theorem putType_hallTransit (n : Nat) (r : TypeRecord) : (putType n r s).hallTransit = s.hallTransit := rfl
@[simp] theorem putType_cribEgress (n : Nat) (r : TypeRecord) : (putType n r s).cribEgress = s.cribEgress := rfl
@[simp] theorem putType_hallEgress (n : Nat) (r : TypeRecord) : (putType n r s).hallEgress = s.hallEgress := rfl
@[simp] theorem putType_guardBlocked (n : Nat) (r : TypeRecord) : (putType n r s).guardBlocked = s.guardBlocked := rfl
@[simp] theorem putType_heads (n : Nat) (r : TypeRecord) : (putType n r s).heads = s.heads := rfl
@[simp] theorem putType_types (n : Nat) (r : TypeRecord) : (putType n r s).types = s.types.setIfInBounds n r := rfl
@[simp] theorem putType_sweep (n : Nat) (r : TypeRecord) : (putType n r s).sweep = s.sweep := rfl
@[simp] theorem putType_assemblies (n : Nat) (r : TypeRecord) : (putType n r s).assemblies = s.assemblies := rfl
@[simp] theorem putType_tagMap (n : Nat) (r : TypeRecord) : (putType n r s).tagMap = s.tagMap := rfl
@[simp] theorem putType_holds (n : Nat) (r : TypeRecord) : (putType n r s).holds = s.holds := rfl
@[simp] theorem putType_issueMap (n : Nat) (r : TypeRecord) : (putType n r s).issueMap = s.issueMap := rfl
@[simp] theorem putType_audit (n : Nat) (r : TypeRecord) : (putType n r s).audit = s.audit := rfl
@[simp] theorem putType_tagDropped (n : Nat) (r : TypeRecord) : (putType n r s).tagDropped = s.tagDropped := rfl
@[simp] theorem putType_machines (n : Nat) (r : TypeRecord) : (putType n r s).machines = s.machines := rfl
@[simp] theorem putType_waitList (n : Nat) (r : TypeRecord) : (putType n r s).waitList = s.waitList := rfl
@[simp] theorem putType_handoff (n : Nat) (r : TypeRecord) : (putType n r s).handoff = s.handoff := rfl
@[simp] theorem putType_handoffDropped (n : Nat) (r : TypeRecord) :
    (putType n r s).handoffDropped = s.handoffDropped := rfl
@[simp] theorem putType_usageMismatch (n : Nat) (r : TypeRecord) :
    (putType n r s).usageMismatch = s.usageMismatch := rfl
@[simp] theorem putType_protection (n : Nat) (r : TypeRecord) : (putType n r s).protection = s.protection := rfl
@[simp] theorem putType_protectionError (n : Nat) (r : TypeRecord) :
    (putType n r s).protectionError = s.protectionError := rfl
@[simp] theorem putType_generation (n : Nat) (r : TypeRecord) : (putType n r s).generation = s.generation := rfl
@[simp] theorem putType_mgmtDropped (n : Nat) (r : TypeRecord) : (putType n r s).mgmtDropped = s.mgmtDropped := rfl
@[simp] theorem putType_answers (n : Nat) (r : TypeRecord) : (putType n r s).answers = s.answers := rfl
@[simp] theorem putType_notices (n : Nat) (r : TypeRecord) : (putType n r s).notices = s.notices := rfl
@[simp] theorem putType_discardedNotices (n : Nat) (r : TypeRecord) :
    (putType n r s).discardedNotices = s.discardedNotices := rfl

/-! ## `putHead` -/

@[simp] theorem putHead_pending (h : Fin 4) (x : Head) : (putHead h x s).pending = s.pending := rfl
@[simp] theorem putHead_resetPin (h : Fin 4) (x : Head) : (putHead h x s).resetPin = s.resetPin := rfl
@[simp] theorem putHead_key (h : Fin 4) (x : Head) : (putHead h x s).key = s.key := rfl
@[simp] theorem putHead_crib (h : Fin 4) (x : Head) : (putHead h x s).crib = s.crib := rfl
@[simp] theorem putHead_hall (h : Fin 4) (x : Head) : (putHead h x s).hall = s.hall := rfl
@[simp] theorem putHead_cribTransit (h : Fin 4) (x : Head) : (putHead h x s).cribTransit = s.cribTransit := rfl
@[simp] theorem putHead_hallTransit (h : Fin 4) (x : Head) : (putHead h x s).hallTransit = s.hallTransit := rfl
@[simp] theorem putHead_cribEgress (h : Fin 4) (x : Head) : (putHead h x s).cribEgress = s.cribEgress := rfl
@[simp] theorem putHead_hallEgress (h : Fin 4) (x : Head) : (putHead h x s).hallEgress = s.hallEgress := rfl
@[simp] theorem putHead_guardBlocked (h : Fin 4) (x : Head) : (putHead h x s).guardBlocked = s.guardBlocked := rfl
@[simp] theorem putHead_heads (h : Fin 4) (x : Head) : (putHead h x s).heads = s.heads.set h x := rfl
@[simp] theorem putHead_types (h : Fin 4) (x : Head) : (putHead h x s).types = s.types := rfl
@[simp] theorem putHead_sweep (h : Fin 4) (x : Head) : (putHead h x s).sweep = s.sweep := rfl
@[simp] theorem putHead_assemblies (h : Fin 4) (x : Head) : (putHead h x s).assemblies = s.assemblies := rfl
@[simp] theorem putHead_tagMap (h : Fin 4) (x : Head) : (putHead h x s).tagMap = s.tagMap := rfl
@[simp] theorem putHead_holds (h : Fin 4) (x : Head) : (putHead h x s).holds = s.holds := rfl
@[simp] theorem putHead_issueMap (h : Fin 4) (x : Head) : (putHead h x s).issueMap = s.issueMap := rfl
@[simp] theorem putHead_audit (h : Fin 4) (x : Head) : (putHead h x s).audit = s.audit := rfl
@[simp] theorem putHead_tagDropped (h : Fin 4) (x : Head) : (putHead h x s).tagDropped = s.tagDropped := rfl
@[simp] theorem putHead_machines (h : Fin 4) (x : Head) : (putHead h x s).machines = s.machines := rfl
@[simp] theorem putHead_waitList (h : Fin 4) (x : Head) : (putHead h x s).waitList = s.waitList := rfl
@[simp] theorem putHead_handoff (h : Fin 4) (x : Head) : (putHead h x s).handoff = s.handoff := rfl
@[simp] theorem putHead_handoffDropped (h : Fin 4) (x : Head) :
    (putHead h x s).handoffDropped = s.handoffDropped := rfl
@[simp] theorem putHead_usageMismatch (h : Fin 4) (x : Head) : (putHead h x s).usageMismatch = s.usageMismatch := rfl
@[simp] theorem putHead_protection (h : Fin 4) (x : Head) : (putHead h x s).protection = s.protection := rfl
@[simp] theorem putHead_protectionError (h : Fin 4) (x : Head) :
    (putHead h x s).protectionError = s.protectionError := rfl
@[simp] theorem putHead_generation (h : Fin 4) (x : Head) : (putHead h x s).generation = s.generation := rfl
@[simp] theorem putHead_mgmtDropped (h : Fin 4) (x : Head) : (putHead h x s).mgmtDropped = s.mgmtDropped := rfl
@[simp] theorem putHead_answers (h : Fin 4) (x : Head) : (putHead h x s).answers = s.answers := rfl
@[simp] theorem putHead_notices (h : Fin 4) (x : Head) : (putHead h x s).notices = s.notices := rfl
@[simp] theorem putHead_discardedNotices (h : Fin 4) (x : Head) :
    (putHead h x s).discardedNotices = s.discardedNotices := rfl

/-! ## `putMachine` -/

@[simp] theorem putMachine_pending (m : Nat) (x : MachineDef) :
    (putMachine m x s).pending = s.pending := by unfold putMachine; split <;> rfl
@[simp] theorem putMachine_resetPin (m : Nat) (x : MachineDef) :
    (putMachine m x s).resetPin = s.resetPin := by unfold putMachine; split <;> rfl
@[simp] theorem putMachine_key (m : Nat) (x : MachineDef) :
    (putMachine m x s).key = s.key := by unfold putMachine; split <;> rfl
@[simp] theorem putMachine_crib (m : Nat) (x : MachineDef) :
    (putMachine m x s).crib = s.crib := by unfold putMachine; split <;> rfl
@[simp] theorem putMachine_hall (m : Nat) (x : MachineDef) :
    (putMachine m x s).hall = s.hall := by unfold putMachine; split <;> rfl
@[simp] theorem putMachine_cribTransit (m : Nat) (x : MachineDef) :
    (putMachine m x s).cribTransit = s.cribTransit := by unfold putMachine; split <;> rfl
@[simp] theorem putMachine_hallTransit (m : Nat) (x : MachineDef) :
    (putMachine m x s).hallTransit = s.hallTransit := by unfold putMachine; split <;> rfl
@[simp] theorem putMachine_cribEgress (m : Nat) (x : MachineDef) :
    (putMachine m x s).cribEgress = s.cribEgress := by unfold putMachine; split <;> rfl
@[simp] theorem putMachine_hallEgress (m : Nat) (x : MachineDef) :
    (putMachine m x s).hallEgress = s.hallEgress := by unfold putMachine; split <;> rfl
@[simp] theorem putMachine_guardBlocked (m : Nat) (x : MachineDef) :
    (putMachine m x s).guardBlocked = s.guardBlocked := by unfold putMachine; split <;> rfl
@[simp] theorem putMachine_heads (m : Nat) (x : MachineDef) :
    (putMachine m x s).heads = s.heads := by unfold putMachine; split <;> rfl
@[simp] theorem putMachine_types (m : Nat) (x : MachineDef) :
    (putMachine m x s).types = s.types := by unfold putMachine; split <;> rfl
@[simp] theorem putMachine_sweep (m : Nat) (x : MachineDef) :
    (putMachine m x s).sweep = s.sweep := by unfold putMachine; split <;> rfl
@[simp] theorem putMachine_assemblies (m : Nat) (x : MachineDef) :
    (putMachine m x s).assemblies = s.assemblies := by unfold putMachine; split <;> rfl
@[simp] theorem putMachine_tagMap (m : Nat) (x : MachineDef) :
    (putMachine m x s).tagMap = s.tagMap := by unfold putMachine; split <;> rfl
@[simp] theorem putMachine_holds (m : Nat) (x : MachineDef) :
    (putMachine m x s).holds = s.holds := by unfold putMachine; split <;> rfl
@[simp] theorem putMachine_issueMap (m : Nat) (x : MachineDef) :
    (putMachine m x s).issueMap = s.issueMap := by unfold putMachine; split <;> rfl
@[simp] theorem putMachine_audit (m : Nat) (x : MachineDef) :
    (putMachine m x s).audit = s.audit := by unfold putMachine; split <;> rfl
@[simp] theorem putMachine_tagDropped (m : Nat) (x : MachineDef) :
    (putMachine m x s).tagDropped = s.tagDropped := by unfold putMachine; split <;> rfl
@[simp] theorem putMachine_waitList (m : Nat) (x : MachineDef) :
    (putMachine m x s).waitList = s.waitList := by unfold putMachine; split <;> rfl
@[simp] theorem putMachine_handoff (m : Nat) (x : MachineDef) :
    (putMachine m x s).handoff = s.handoff := by unfold putMachine; split <;> rfl
@[simp] theorem putMachine_handoffDropped (m : Nat) (x : MachineDef) :
    (putMachine m x s).handoffDropped = s.handoffDropped := by unfold putMachine; split <;> rfl
@[simp] theorem putMachine_usageMismatch (m : Nat) (x : MachineDef) :
    (putMachine m x s).usageMismatch = s.usageMismatch := by unfold putMachine; split <;> rfl
@[simp] theorem putMachine_protection (m : Nat) (x : MachineDef) :
    (putMachine m x s).protection = s.protection := by unfold putMachine; split <;> rfl
@[simp] theorem putMachine_protectionError (m : Nat) (x : MachineDef) :
    (putMachine m x s).protectionError = s.protectionError := by unfold putMachine; split <;> rfl
@[simp] theorem putMachine_generation (m : Nat) (x : MachineDef) :
    (putMachine m x s).generation = s.generation := by unfold putMachine; split <;> rfl
@[simp] theorem putMachine_mgmtDropped (m : Nat) (x : MachineDef) :
    (putMachine m x s).mgmtDropped = s.mgmtDropped := by unfold putMachine; split <;> rfl
@[simp] theorem putMachine_answers (m : Nat) (x : MachineDef) :
    (putMachine m x s).answers = s.answers := by unfold putMachine; split <;> rfl
@[simp] theorem putMachine_notices (m : Nat) (x : MachineDef) :
    (putMachine m x s).notices = s.notices := by unfold putMachine; split <;> rfl
@[simp] theorem putMachine_discardedNotices (m : Nat) (x : MachineDef) :
    (putMachine m x s).discardedNotices = s.discardedNotices := by unfold putMachine; split <;> rfl

/-! ## `putPort` -/

@[simp] theorem putPort_pending (p : Port) (x : PortState) : (putPort p x s).pending = s.pending := by cases p <;> rfl
@[simp] theorem putPort_resetPin (p : Port) (x : PortState) :
    (putPort p x s).resetPin = s.resetPin := by cases p <;> rfl
@[simp] theorem putPort_key (p : Port) (x : PortState) : (putPort p x s).key = s.key := by cases p <;> rfl
@[simp] theorem putPort_cribTransit (p : Port) (x : PortState) :
    (putPort p x s).cribTransit = s.cribTransit := by cases p <;> rfl
@[simp] theorem putPort_hallTransit (p : Port) (x : PortState) :
    (putPort p x s).hallTransit = s.hallTransit := by cases p <;> rfl
@[simp] theorem putPort_cribEgress (p : Port) (x : PortState) :
    (putPort p x s).cribEgress = s.cribEgress := by cases p <;> rfl
@[simp] theorem putPort_hallEgress (p : Port) (x : PortState) :
    (putPort p x s).hallEgress = s.hallEgress := by cases p <;> rfl
@[simp] theorem putPort_guardBlocked (p : Port) (x : PortState) :
    (putPort p x s).guardBlocked = s.guardBlocked := by cases p <;> rfl
@[simp] theorem putPort_heads (p : Port) (x : PortState) : (putPort p x s).heads = s.heads := by cases p <;> rfl
@[simp] theorem putPort_types (p : Port) (x : PortState) : (putPort p x s).types = s.types := by cases p <;> rfl
@[simp] theorem putPort_sweep (p : Port) (x : PortState) : (putPort p x s).sweep = s.sweep := by cases p <;> rfl
@[simp] theorem putPort_assemblies (p : Port) (x : PortState) :
    (putPort p x s).assemblies = s.assemblies := by cases p <;> rfl
@[simp] theorem putPort_tagMap (p : Port) (x : PortState) : (putPort p x s).tagMap = s.tagMap := by cases p <;> rfl
@[simp] theorem putPort_holds (p : Port) (x : PortState) : (putPort p x s).holds = s.holds := by cases p <;> rfl
@[simp] theorem putPort_issueMap (p : Port) (x : PortState) :
    (putPort p x s).issueMap = s.issueMap := by cases p <;> rfl
@[simp] theorem putPort_audit (p : Port) (x : PortState) : (putPort p x s).audit = s.audit := by cases p <;> rfl
@[simp] theorem putPort_tagDropped (p : Port) (x : PortState) :
    (putPort p x s).tagDropped = s.tagDropped := by cases p <;> rfl
@[simp] theorem putPort_machines (p : Port) (x : PortState) :
    (putPort p x s).machines = s.machines := by cases p <;> rfl
@[simp] theorem putPort_waitList (p : Port) (x : PortState) :
    (putPort p x s).waitList = s.waitList := by cases p <;> rfl
@[simp] theorem putPort_handoff (p : Port) (x : PortState) : (putPort p x s).handoff = s.handoff := by cases p <;> rfl
@[simp] theorem putPort_handoffDropped (p : Port) (x : PortState) :
    (putPort p x s).handoffDropped = s.handoffDropped := by cases p <;> rfl
@[simp] theorem putPort_usageMismatch (p : Port) (x : PortState) :
    (putPort p x s).usageMismatch = s.usageMismatch := by cases p <;> rfl
@[simp] theorem putPort_protection (p : Port) (x : PortState) :
    (putPort p x s).protection = s.protection := by cases p <;> rfl
@[simp] theorem putPort_protectionError (p : Port) (x : PortState) :
    (putPort p x s).protectionError = s.protectionError := by cases p <;> rfl
@[simp] theorem putPort_generation (p : Port) (x : PortState) :
    (putPort p x s).generation = s.generation := by cases p <;> rfl
@[simp] theorem putPort_mgmtDropped (p : Port) (x : PortState) :
    (putPort p x s).mgmtDropped = s.mgmtDropped := by cases p <;> rfl
@[simp] theorem putPort_answers (p : Port) (x : PortState) : (putPort p x s).answers = s.answers := by cases p <;> rfl
@[simp] theorem putPort_notices (p : Port) (x : PortState) : (putPort p x s).notices = s.notices := by cases p <;> rfl
@[simp] theorem putPort_discardedNotices (p : Port) (x : PortState) :
    (putPort p x s).discardedNotices = s.discardedNotices := by cases p <;> rfl

/-! ## `heard` -/

@[simp] theorem heard_pending (p : Port) : (heard p s).pending = s.pending := by cases p <;> rfl
@[simp] theorem heard_resetPin (p : Port) : (heard p s).resetPin = s.resetPin := by cases p <;> rfl
@[simp] theorem heard_key (p : Port) : (heard p s).key = s.key := by cases p <;> rfl
@[simp] theorem heard_cribTransit (p : Port) : (heard p s).cribTransit = s.cribTransit := by cases p <;> rfl
@[simp] theorem heard_hallTransit (p : Port) : (heard p s).hallTransit = s.hallTransit := by cases p <;> rfl
@[simp] theorem heard_cribEgress (p : Port) : (heard p s).cribEgress = s.cribEgress := by cases p <;> rfl
@[simp] theorem heard_hallEgress (p : Port) : (heard p s).hallEgress = s.hallEgress := by cases p <;> rfl
@[simp] theorem heard_guardBlocked (p : Port) : (heard p s).guardBlocked = s.guardBlocked := by cases p <;> rfl
@[simp] theorem heard_heads (p : Port) : (heard p s).heads = s.heads := by cases p <;> rfl
@[simp] theorem heard_types (p : Port) : (heard p s).types = s.types := by cases p <;> rfl
@[simp] theorem heard_sweep (p : Port) : (heard p s).sweep = s.sweep := by cases p <;> rfl
@[simp] theorem heard_assemblies (p : Port) : (heard p s).assemblies = s.assemblies := by cases p <;> rfl
@[simp] theorem heard_tagMap (p : Port) : (heard p s).tagMap = s.tagMap := by cases p <;> rfl
@[simp] theorem heard_holds (p : Port) : (heard p s).holds = s.holds := by cases p <;> rfl
@[simp] theorem heard_issueMap (p : Port) : (heard p s).issueMap = s.issueMap := by cases p <;> rfl
@[simp] theorem heard_audit (p : Port) : (heard p s).audit = s.audit := by cases p <;> rfl
@[simp] theorem heard_tagDropped (p : Port) : (heard p s).tagDropped = s.tagDropped := by cases p <;> rfl
@[simp] theorem heard_machines (p : Port) : (heard p s).machines = s.machines := by cases p <;> rfl
@[simp] theorem heard_waitList (p : Port) : (heard p s).waitList = s.waitList := by cases p <;> rfl
@[simp] theorem heard_handoff (p : Port) : (heard p s).handoff = s.handoff := by cases p <;> rfl
@[simp] theorem heard_handoffDropped (p : Port) : (heard p s).handoffDropped = s.handoffDropped := by cases p <;> rfl
@[simp] theorem heard_usageMismatch (p : Port) : (heard p s).usageMismatch = s.usageMismatch := by cases p <;> rfl
@[simp] theorem heard_protection (p : Port) : (heard p s).protection = s.protection := by cases p <;> rfl
@[simp] theorem heard_protectionError (p : Port) :
    (heard p s).protectionError = s.protectionError := by cases p <;> rfl
@[simp] theorem heard_generation (p : Port) : (heard p s).generation = s.generation := by cases p <;> rfl
@[simp] theorem heard_mgmtDropped (p : Port) : (heard p s).mgmtDropped = s.mgmtDropped := by cases p <;> rfl
@[simp] theorem heard_answers (p : Port) : (heard p s).answers = s.answers := by cases p <;> rfl
@[simp] theorem heard_notices (p : Port) : (heard p s).notices = s.notices := by cases p <;> rfl
@[simp] theorem heard_discardedNotices (p : Port) :
    (heard p s).discardedNotices = s.discardedNotices := by cases p <;> rfl

/-! ## `countLine` -/

@[simp] theorem countLine_pending (p : Port) (c : LineCounter) :
    (countLine p c s).pending = s.pending := by cases p <;> rfl
@[simp] theorem countLine_resetPin (p : Port) (c : LineCounter) :
    (countLine p c s).resetPin = s.resetPin := by cases p <;> rfl
@[simp] theorem countLine_key (p : Port) (c : LineCounter) : (countLine p c s).key = s.key := by cases p <;> rfl
@[simp] theorem countLine_cribTransit (p : Port) (c : LineCounter) :
    (countLine p c s).cribTransit = s.cribTransit := by cases p <;> rfl
@[simp] theorem countLine_hallTransit (p : Port) (c : LineCounter) :
    (countLine p c s).hallTransit = s.hallTransit := by cases p <;> rfl
@[simp] theorem countLine_cribEgress (p : Port) (c : LineCounter) :
    (countLine p c s).cribEgress = s.cribEgress := by cases p <;> rfl
@[simp] theorem countLine_hallEgress (p : Port) (c : LineCounter) :
    (countLine p c s).hallEgress = s.hallEgress := by cases p <;> rfl
@[simp] theorem countLine_guardBlocked (p : Port) (c : LineCounter) :
    (countLine p c s).guardBlocked = s.guardBlocked := by cases p <;> rfl
@[simp] theorem countLine_heads (p : Port) (c : LineCounter) : (countLine p c s).heads = s.heads := by cases p <;> rfl
@[simp] theorem countLine_types (p : Port) (c : LineCounter) : (countLine p c s).types = s.types := by cases p <;> rfl
@[simp] theorem countLine_sweep (p : Port) (c : LineCounter) : (countLine p c s).sweep = s.sweep := by cases p <;> rfl
@[simp] theorem countLine_assemblies (p : Port) (c : LineCounter) :
    (countLine p c s).assemblies = s.assemblies := by cases p <;> rfl
@[simp] theorem countLine_tagMap (p : Port) (c : LineCounter) :
    (countLine p c s).tagMap = s.tagMap := by cases p <;> rfl
@[simp] theorem countLine_holds (p : Port) (c : LineCounter) : (countLine p c s).holds = s.holds := by cases p <;> rfl
@[simp] theorem countLine_issueMap (p : Port) (c : LineCounter) :
    (countLine p c s).issueMap = s.issueMap := by cases p <;> rfl
@[simp] theorem countLine_audit (p : Port) (c : LineCounter) : (countLine p c s).audit = s.audit := by cases p <;> rfl
@[simp] theorem countLine_tagDropped (p : Port) (c : LineCounter) :
    (countLine p c s).tagDropped = s.tagDropped := by cases p <;> rfl
@[simp] theorem countLine_machines (p : Port) (c : LineCounter) :
    (countLine p c s).machines = s.machines := by cases p <;> rfl
@[simp] theorem countLine_waitList (p : Port) (c : LineCounter) :
    (countLine p c s).waitList = s.waitList := by cases p <;> rfl
@[simp] theorem countLine_handoff (p : Port) (c : LineCounter) :
    (countLine p c s).handoff = s.handoff := by cases p <;> rfl
@[simp] theorem countLine_handoffDropped (p : Port) (c : LineCounter) :
    (countLine p c s).handoffDropped = s.handoffDropped := by cases p <;> rfl
@[simp] theorem countLine_usageMismatch (p : Port) (c : LineCounter) :
    (countLine p c s).usageMismatch = s.usageMismatch := by cases p <;> rfl
@[simp] theorem countLine_protection (p : Port) (c : LineCounter) :
    (countLine p c s).protection = s.protection := by cases p <;> rfl
@[simp] theorem countLine_protectionError (p : Port) (c : LineCounter) :
    (countLine p c s).protectionError = s.protectionError := by cases p <;> rfl
@[simp] theorem countLine_generation (p : Port) (c : LineCounter) :
    (countLine p c s).generation = s.generation := by cases p <;> rfl
@[simp] theorem countLine_mgmtDropped (p : Port) (c : LineCounter) :
    (countLine p c s).mgmtDropped = s.mgmtDropped := by cases p <;> rfl
@[simp] theorem countLine_answers (p : Port) (c : LineCounter) :
    (countLine p c s).answers = s.answers := by cases p <;> rfl
@[simp] theorem countLine_notices (p : Port) (c : LineCounter) :
    (countLine p c s).notices = s.notices := by cases p <;> rfl
@[simp] theorem countLine_discardedNotices (p : Port) (c : LineCounter) :
    (countLine p c s).discardedNotices = s.discardedNotices := by cases p <;> rfl

/-! ## `notify` -/

@[simp] theorem notify_pending (b : NoticeBody) : (notify b s).pending = s.pending := by unfold notify; split <;> rfl
@[simp] theorem notify_resetPin (b : NoticeBody) :
    (notify b s).resetPin = s.resetPin := by unfold notify; split <;> rfl
@[simp] theorem notify_key (b : NoticeBody) : (notify b s).key = s.key := by unfold notify; split <;> rfl
@[simp] theorem notify_crib (b : NoticeBody) : (notify b s).crib = s.crib := by unfold notify; split <;> rfl
@[simp] theorem notify_hall (b : NoticeBody) : (notify b s).hall = s.hall := by unfold notify; split <;> rfl
@[simp] theorem notify_cribTransit (b : NoticeBody) :
    (notify b s).cribTransit = s.cribTransit := by unfold notify; split <;> rfl
@[simp] theorem notify_hallTransit (b : NoticeBody) :
    (notify b s).hallTransit = s.hallTransit := by unfold notify; split <;> rfl
@[simp] theorem notify_cribEgress (b : NoticeBody) :
    (notify b s).cribEgress = s.cribEgress := by unfold notify; split <;> rfl
@[simp] theorem notify_hallEgress (b : NoticeBody) :
    (notify b s).hallEgress = s.hallEgress := by unfold notify; split <;> rfl
@[simp] theorem notify_guardBlocked (b : NoticeBody) :
    (notify b s).guardBlocked = s.guardBlocked := by unfold notify; split <;> rfl
@[simp] theorem notify_heads (b : NoticeBody) : (notify b s).heads = s.heads := by unfold notify; split <;> rfl
@[simp] theorem notify_types (b : NoticeBody) : (notify b s).types = s.types := by unfold notify; split <;> rfl
@[simp] theorem notify_sweep (b : NoticeBody) : (notify b s).sweep = s.sweep := by unfold notify; split <;> rfl
@[simp] theorem notify_assemblies (b : NoticeBody) :
    (notify b s).assemblies = s.assemblies := by unfold notify; split <;> rfl
@[simp] theorem notify_tagMap (b : NoticeBody) : (notify b s).tagMap = s.tagMap := by unfold notify; split <;> rfl
@[simp] theorem notify_holds (b : NoticeBody) : (notify b s).holds = s.holds := by unfold notify; split <;> rfl
@[simp] theorem notify_issueMap (b : NoticeBody) :
    (notify b s).issueMap = s.issueMap := by unfold notify; split <;> rfl
@[simp] theorem notify_audit (b : NoticeBody) : (notify b s).audit = s.audit := by unfold notify; split <;> rfl
@[simp] theorem notify_tagDropped (b : NoticeBody) :
    (notify b s).tagDropped = s.tagDropped := by unfold notify; split <;> rfl
@[simp] theorem notify_machines (b : NoticeBody) :
    (notify b s).machines = s.machines := by unfold notify; split <;> rfl
@[simp] theorem notify_waitList (b : NoticeBody) :
    (notify b s).waitList = s.waitList := by unfold notify; split <;> rfl
@[simp] theorem notify_handoff (b : NoticeBody) : (notify b s).handoff = s.handoff := by unfold notify; split <;> rfl
@[simp] theorem notify_handoffDropped (b : NoticeBody) :
    (notify b s).handoffDropped = s.handoffDropped := by unfold notify; split <;> rfl
@[simp] theorem notify_usageMismatch (b : NoticeBody) :
    (notify b s).usageMismatch = s.usageMismatch := by unfold notify; split <;> rfl
@[simp] theorem notify_protection (b : NoticeBody) :
    (notify b s).protection = s.protection := by unfold notify; split <;> rfl
@[simp] theorem notify_protectionError (b : NoticeBody) :
    (notify b s).protectionError = s.protectionError := by unfold notify; split <;> rfl
@[simp] theorem notify_generation (b : NoticeBody) :
    (notify b s).generation = s.generation := by unfold notify; split <;> rfl
@[simp] theorem notify_mgmtDropped (b : NoticeBody) :
    (notify b s).mgmtDropped = s.mgmtDropped := by unfold notify; split <;> rfl
@[simp] theorem notify_answers (b : NoticeBody) : (notify b s).answers = s.answers := by unfold notify; split <;> rfl

/-! ## `pushAnswer` -/

@[simp] theorem pushAnswer_pending (a : Answer) : (pushAnswer a s).pending = s.pending := rfl
@[simp] theorem pushAnswer_resetPin (a : Answer) : (pushAnswer a s).resetPin = s.resetPin := rfl
@[simp] theorem pushAnswer_key (a : Answer) : (pushAnswer a s).key = s.key := rfl
@[simp] theorem pushAnswer_crib (a : Answer) : (pushAnswer a s).crib = s.crib := rfl
@[simp] theorem pushAnswer_hall (a : Answer) : (pushAnswer a s).hall = s.hall := rfl
@[simp] theorem pushAnswer_cribTransit (a : Answer) : (pushAnswer a s).cribTransit = s.cribTransit := rfl
@[simp] theorem pushAnswer_hallTransit (a : Answer) : (pushAnswer a s).hallTransit = s.hallTransit := rfl
@[simp] theorem pushAnswer_cribEgress (a : Answer) : (pushAnswer a s).cribEgress = s.cribEgress := rfl
@[simp] theorem pushAnswer_hallEgress (a : Answer) : (pushAnswer a s).hallEgress = s.hallEgress := rfl
@[simp] theorem pushAnswer_guardBlocked (a : Answer) : (pushAnswer a s).guardBlocked = s.guardBlocked := rfl
@[simp] theorem pushAnswer_heads (a : Answer) : (pushAnswer a s).heads = s.heads := rfl
@[simp] theorem pushAnswer_types (a : Answer) : (pushAnswer a s).types = s.types := rfl
@[simp] theorem pushAnswer_sweep (a : Answer) : (pushAnswer a s).sweep = s.sweep := rfl
@[simp] theorem pushAnswer_assemblies (a : Answer) : (pushAnswer a s).assemblies = s.assemblies := rfl
@[simp] theorem pushAnswer_tagMap (a : Answer) : (pushAnswer a s).tagMap = s.tagMap := rfl
@[simp] theorem pushAnswer_holds (a : Answer) : (pushAnswer a s).holds = s.holds := rfl
@[simp] theorem pushAnswer_issueMap (a : Answer) : (pushAnswer a s).issueMap = s.issueMap := rfl
@[simp] theorem pushAnswer_audit (a : Answer) : (pushAnswer a s).audit = s.audit := rfl
@[simp] theorem pushAnswer_tagDropped (a : Answer) : (pushAnswer a s).tagDropped = s.tagDropped := rfl
@[simp] theorem pushAnswer_machines (a : Answer) : (pushAnswer a s).machines = s.machines := rfl
@[simp] theorem pushAnswer_waitList (a : Answer) : (pushAnswer a s).waitList = s.waitList := rfl
@[simp] theorem pushAnswer_handoff (a : Answer) : (pushAnswer a s).handoff = s.handoff := rfl
@[simp] theorem pushAnswer_handoffDropped (a : Answer) : (pushAnswer a s).handoffDropped = s.handoffDropped := rfl
@[simp] theorem pushAnswer_usageMismatch (a : Answer) : (pushAnswer a s).usageMismatch = s.usageMismatch := rfl
@[simp] theorem pushAnswer_protection (a : Answer) : (pushAnswer a s).protection = s.protection := rfl
@[simp] theorem pushAnswer_protectionError (a : Answer) : (pushAnswer a s).protectionError = s.protectionError := rfl
@[simp] theorem pushAnswer_generation (a : Answer) : (pushAnswer a s).generation = s.generation := rfl
@[simp] theorem pushAnswer_mgmtDropped (a : Answer) : (pushAnswer a s).mgmtDropped = s.mgmtDropped := rfl
@[simp] theorem pushAnswer_answers (a : Answer) : (pushAnswer a s).answers = s.answers ++ [a] := rfl
@[simp] theorem pushAnswer_notices (a : Answer) : (pushAnswer a s).notices = s.notices := rfl
@[simp] theorem pushAnswer_discardedNotices (a : Answer) :
    (pushAnswer a s).discardedNotices = s.discardedNotices := rfl

/-! ## `reply` -/

@[simp] theorem reply_pending (code rt : Nat) (status : Status) (b : ReplyBody) :
    (reply code rt status b s).pending = s.pending := rfl
@[simp] theorem reply_resetPin (code rt : Nat) (status : Status) (b : ReplyBody) :
    (reply code rt status b s).resetPin = s.resetPin := rfl
@[simp] theorem reply_key (code rt : Nat) (status : Status) (b : ReplyBody) :
    (reply code rt status b s).key = s.key := rfl
@[simp] theorem reply_crib (code rt : Nat) (status : Status) (b : ReplyBody) :
    (reply code rt status b s).crib = s.crib := rfl
@[simp] theorem reply_hall (code rt : Nat) (status : Status) (b : ReplyBody) :
    (reply code rt status b s).hall = s.hall := rfl
@[simp] theorem reply_cribTransit (code rt : Nat) (status : Status) (b : ReplyBody) :
    (reply code rt status b s).cribTransit = s.cribTransit := rfl
@[simp] theorem reply_hallTransit (code rt : Nat) (status : Status) (b : ReplyBody) :
    (reply code rt status b s).hallTransit = s.hallTransit := rfl
@[simp] theorem reply_cribEgress (code rt : Nat) (status : Status) (b : ReplyBody) :
    (reply code rt status b s).cribEgress = s.cribEgress := rfl
@[simp] theorem reply_hallEgress (code rt : Nat) (status : Status) (b : ReplyBody) :
    (reply code rt status b s).hallEgress = s.hallEgress := rfl
@[simp] theorem reply_guardBlocked (code rt : Nat) (status : Status) (b : ReplyBody) :
    (reply code rt status b s).guardBlocked = s.guardBlocked := rfl
@[simp] theorem reply_heads (code rt : Nat) (status : Status) (b : ReplyBody) :
    (reply code rt status b s).heads = s.heads := rfl
@[simp] theorem reply_types (code rt : Nat) (status : Status) (b : ReplyBody) :
    (reply code rt status b s).types = s.types := rfl
@[simp] theorem reply_sweep (code rt : Nat) (status : Status) (b : ReplyBody) :
    (reply code rt status b s).sweep = s.sweep := rfl
@[simp] theorem reply_assemblies (code rt : Nat) (status : Status) (b : ReplyBody) :
    (reply code rt status b s).assemblies = s.assemblies := rfl
@[simp] theorem reply_tagMap (code rt : Nat) (status : Status) (b : ReplyBody) :
    (reply code rt status b s).tagMap = s.tagMap := rfl
@[simp] theorem reply_holds (code rt : Nat) (status : Status) (b : ReplyBody) :
    (reply code rt status b s).holds = s.holds := rfl
@[simp] theorem reply_issueMap (code rt : Nat) (status : Status) (b : ReplyBody) :
    (reply code rt status b s).issueMap = s.issueMap := rfl
@[simp] theorem reply_audit (code rt : Nat) (status : Status) (b : ReplyBody) :
    (reply code rt status b s).audit = s.audit := rfl
@[simp] theorem reply_tagDropped (code rt : Nat) (status : Status) (b : ReplyBody) :
    (reply code rt status b s).tagDropped = s.tagDropped := rfl
@[simp] theorem reply_machines (code rt : Nat) (status : Status) (b : ReplyBody) :
    (reply code rt status b s).machines = s.machines := rfl
@[simp] theorem reply_waitList (code rt : Nat) (status : Status) (b : ReplyBody) :
    (reply code rt status b s).waitList = s.waitList := rfl
@[simp] theorem reply_handoff (code rt : Nat) (status : Status) (b : ReplyBody) :
    (reply code rt status b s).handoff = s.handoff := rfl
@[simp] theorem reply_handoffDropped (code rt : Nat) (status : Status) (b : ReplyBody) :
    (reply code rt status b s).handoffDropped = s.handoffDropped := rfl
@[simp] theorem reply_usageMismatch (code rt : Nat) (status : Status) (b : ReplyBody) :
    (reply code rt status b s).usageMismatch = s.usageMismatch := rfl
@[simp] theorem reply_protection (code rt : Nat) (status : Status) (b : ReplyBody) :
    (reply code rt status b s).protection = s.protection := rfl
@[simp] theorem reply_protectionError (code rt : Nat) (status : Status) (b : ReplyBody) :
    (reply code rt status b s).protectionError = s.protectionError := rfl
@[simp] theorem reply_generation (code rt : Nat) (status : Status) (b : ReplyBody) :
    (reply code rt status b s).generation = s.generation := rfl
@[simp] theorem reply_mgmtDropped (code rt : Nat) (status : Status) (b : ReplyBody) :
    (reply code rt status b s).mgmtDropped = s.mgmtDropped := rfl
@[simp] theorem reply_answers (code rt : Nat) (status : Status) (b : ReplyBody) :
    (reply code rt status b s).answers = s.answers ++ [.reply code rt status s.generation b] := rfl
@[simp] theorem reply_notices (code rt : Nat) (status : Status) (b : ReplyBody) :
    (reply code rt status b s).notices = s.notices := rfl
@[simp] theorem reply_discardedNotices (code rt : Nat) (status : Status) (b : ReplyBody) :
    (reply code rt status b s).discardedNotices = s.discardedNotices := rfl

/-! ## `advanceGeneration` -/

@[simp] theorem advanceGeneration_pending : (advanceGeneration s).pending = s.pending := rfl
@[simp] theorem advanceGeneration_resetPin : (advanceGeneration s).resetPin = s.resetPin := rfl
@[simp] theorem advanceGeneration_key : (advanceGeneration s).key = s.key := rfl
@[simp] theorem advanceGeneration_crib : (advanceGeneration s).crib = s.crib := rfl
@[simp] theorem advanceGeneration_hall : (advanceGeneration s).hall = s.hall := rfl
@[simp] theorem advanceGeneration_cribTransit : (advanceGeneration s).cribTransit = s.cribTransit := rfl
@[simp] theorem advanceGeneration_hallTransit : (advanceGeneration s).hallTransit = s.hallTransit := rfl
@[simp] theorem advanceGeneration_cribEgress : (advanceGeneration s).cribEgress = s.cribEgress := rfl
@[simp] theorem advanceGeneration_hallEgress : (advanceGeneration s).hallEgress = s.hallEgress := rfl
@[simp] theorem advanceGeneration_guardBlocked : (advanceGeneration s).guardBlocked = s.guardBlocked := rfl
@[simp] theorem advanceGeneration_heads : (advanceGeneration s).heads = s.heads := rfl
@[simp] theorem advanceGeneration_types : (advanceGeneration s).types = s.types := rfl
@[simp] theorem advanceGeneration_sweep : (advanceGeneration s).sweep = s.sweep := rfl
@[simp] theorem advanceGeneration_assemblies : (advanceGeneration s).assemblies = s.assemblies := rfl
@[simp] theorem advanceGeneration_tagMap : (advanceGeneration s).tagMap = s.tagMap := rfl
@[simp] theorem advanceGeneration_holds : (advanceGeneration s).holds = s.holds := rfl
@[simp] theorem advanceGeneration_issueMap : (advanceGeneration s).issueMap = s.issueMap := rfl
@[simp] theorem advanceGeneration_audit : (advanceGeneration s).audit = s.audit := rfl
@[simp] theorem advanceGeneration_tagDropped : (advanceGeneration s).tagDropped = s.tagDropped := rfl
@[simp] theorem advanceGeneration_machines : (advanceGeneration s).machines = s.machines := rfl
@[simp] theorem advanceGeneration_waitList : (advanceGeneration s).waitList = s.waitList := rfl
@[simp] theorem advanceGeneration_handoff : (advanceGeneration s).handoff = s.handoff := rfl
@[simp] theorem advanceGeneration_handoffDropped : (advanceGeneration s).handoffDropped = s.handoffDropped := rfl
@[simp] theorem advanceGeneration_usageMismatch : (advanceGeneration s).usageMismatch = s.usageMismatch := rfl
@[simp] theorem advanceGeneration_protection : (advanceGeneration s).protection = s.protection := rfl
@[simp] theorem advanceGeneration_protectionError : (advanceGeneration s).protectionError = s.protectionError := rfl
@[simp] theorem advanceGeneration_generation : (advanceGeneration s).generation = (s.generation + 1) % 65536 := rfl
@[simp] theorem advanceGeneration_mgmtDropped : (advanceGeneration s).mgmtDropped = s.mgmtDropped := rfl
@[simp] theorem advanceGeneration_answers : (advanceGeneration s).answers = s.answers := rfl
@[simp] theorem advanceGeneration_notices : (advanceGeneration s).notices = s.notices := rfl
@[simp] theorem advanceGeneration_discardedNotices :
    (advanceGeneration s).discardedNotices = s.discardedNotices := rfl

/-! ## `countIn` -/

@[simp] theorem countIn_pending (n : Nat) : (countIn n s).pending = s.pending := rfl
@[simp] theorem countIn_resetPin (n : Nat) : (countIn n s).resetPin = s.resetPin := rfl
@[simp] theorem countIn_key (n : Nat) : (countIn n s).key = s.key := rfl
@[simp] theorem countIn_crib (n : Nat) : (countIn n s).crib = s.crib := rfl
@[simp] theorem countIn_hall (n : Nat) : (countIn n s).hall = s.hall := rfl
@[simp] theorem countIn_cribTransit (n : Nat) : (countIn n s).cribTransit = s.cribTransit := rfl
@[simp] theorem countIn_hallTransit (n : Nat) : (countIn n s).hallTransit = s.hallTransit := rfl
@[simp] theorem countIn_cribEgress (n : Nat) : (countIn n s).cribEgress = s.cribEgress := rfl
@[simp] theorem countIn_hallEgress (n : Nat) : (countIn n s).hallEgress = s.hallEgress := rfl
@[simp] theorem countIn_guardBlocked (n : Nat) : (countIn n s).guardBlocked = s.guardBlocked := rfl
@[simp] theorem countIn_heads (n : Nat) : (countIn n s).heads = s.heads := rfl
@[simp] theorem countIn_types (n : Nat) :
    (countIn n s).types = s.types.setIfInBounds n { typeAt s n with inUse := (typeAt s n).inUse + 1 } := rfl
@[simp] theorem countIn_sweep (n : Nat) : (countIn n s).sweep = s.sweep := rfl
@[simp] theorem countIn_assemblies (n : Nat) : (countIn n s).assemblies = s.assemblies := rfl
@[simp] theorem countIn_tagMap (n : Nat) : (countIn n s).tagMap = s.tagMap := rfl
@[simp] theorem countIn_holds (n : Nat) : (countIn n s).holds = s.holds := rfl
@[simp] theorem countIn_issueMap (n : Nat) : (countIn n s).issueMap = s.issueMap := rfl
@[simp] theorem countIn_audit (n : Nat) : (countIn n s).audit = s.audit := rfl
@[simp] theorem countIn_tagDropped (n : Nat) : (countIn n s).tagDropped = s.tagDropped := rfl
@[simp] theorem countIn_machines (n : Nat) : (countIn n s).machines = s.machines := rfl
@[simp] theorem countIn_waitList (n : Nat) : (countIn n s).waitList = s.waitList := rfl
@[simp] theorem countIn_handoff (n : Nat) : (countIn n s).handoff = s.handoff := rfl
@[simp] theorem countIn_handoffDropped (n : Nat) : (countIn n s).handoffDropped = s.handoffDropped := rfl
@[simp] theorem countIn_usageMismatch (n : Nat) : (countIn n s).usageMismatch = s.usageMismatch := rfl
@[simp] theorem countIn_protection (n : Nat) : (countIn n s).protection = s.protection := rfl
@[simp] theorem countIn_protectionError (n : Nat) : (countIn n s).protectionError = s.protectionError := rfl
@[simp] theorem countIn_generation (n : Nat) : (countIn n s).generation = s.generation := rfl
@[simp] theorem countIn_mgmtDropped (n : Nat) : (countIn n s).mgmtDropped = s.mgmtDropped := rfl
@[simp] theorem countIn_answers (n : Nat) : (countIn n s).answers = s.answers := rfl
@[simp] theorem countIn_notices (n : Nat) : (countIn n s).notices = s.notices := rfl
@[simp] theorem countIn_discardedNotices (n : Nat) : (countIn n s).discardedNotices = s.discardedNotices := rfl

/-! ## `countOut` -/

@[simp] theorem countOut_pending (n : Nat) : (countOut n s).pending = s.pending := rfl
@[simp] theorem countOut_resetPin (n : Nat) : (countOut n s).resetPin = s.resetPin := rfl
@[simp] theorem countOut_key (n : Nat) : (countOut n s).key = s.key := rfl
@[simp] theorem countOut_crib (n : Nat) : (countOut n s).crib = s.crib := rfl
@[simp] theorem countOut_hall (n : Nat) : (countOut n s).hall = s.hall := rfl
@[simp] theorem countOut_cribTransit (n : Nat) : (countOut n s).cribTransit = s.cribTransit := rfl
@[simp] theorem countOut_hallTransit (n : Nat) : (countOut n s).hallTransit = s.hallTransit := rfl
@[simp] theorem countOut_cribEgress (n : Nat) : (countOut n s).cribEgress = s.cribEgress := rfl
@[simp] theorem countOut_hallEgress (n : Nat) : (countOut n s).hallEgress = s.hallEgress := rfl
@[simp] theorem countOut_guardBlocked (n : Nat) : (countOut n s).guardBlocked = s.guardBlocked := rfl
@[simp] theorem countOut_heads (n : Nat) : (countOut n s).heads = s.heads := rfl
@[simp] theorem countOut_types (n : Nat) :
    (countOut n s).types = s.types.setIfInBounds n { typeAt s n with inUse := (typeAt s n).inUse - 1 } := rfl
@[simp] theorem countOut_sweep (n : Nat) : (countOut n s).sweep = s.sweep := rfl
@[simp] theorem countOut_assemblies (n : Nat) : (countOut n s).assemblies = s.assemblies := rfl
@[simp] theorem countOut_tagMap (n : Nat) : (countOut n s).tagMap = s.tagMap := rfl
@[simp] theorem countOut_holds (n : Nat) : (countOut n s).holds = s.holds := rfl
@[simp] theorem countOut_issueMap (n : Nat) : (countOut n s).issueMap = s.issueMap := rfl
@[simp] theorem countOut_audit (n : Nat) : (countOut n s).audit = s.audit := rfl
@[simp] theorem countOut_tagDropped (n : Nat) : (countOut n s).tagDropped = s.tagDropped := rfl
@[simp] theorem countOut_machines (n : Nat) : (countOut n s).machines = s.machines := rfl
@[simp] theorem countOut_waitList (n : Nat) : (countOut n s).waitList = s.waitList := rfl
@[simp] theorem countOut_handoff (n : Nat) : (countOut n s).handoff = s.handoff := rfl
@[simp] theorem countOut_handoffDropped (n : Nat) : (countOut n s).handoffDropped = s.handoffDropped := rfl
@[simp] theorem countOut_usageMismatch (n : Nat) : (countOut n s).usageMismatch = s.usageMismatch := rfl
@[simp] theorem countOut_protection (n : Nat) : (countOut n s).protection = s.protection := rfl
@[simp] theorem countOut_protectionError (n : Nat) : (countOut n s).protectionError = s.protectionError := rfl
@[simp] theorem countOut_generation (n : Nat) : (countOut n s).generation = s.generation := rfl
@[simp] theorem countOut_mgmtDropped (n : Nat) : (countOut n s).mgmtDropped = s.mgmtDropped := rfl
@[simp] theorem countOut_answers (n : Nat) : (countOut n s).answers = s.answers := rfl
@[simp] theorem countOut_notices (n : Nat) : (countOut n s).notices = s.notices := rfl
@[simp] theorem countOut_discardedNotices (n : Nat) : (countOut n s).discardedNotices = s.discardedNotices := rfl

/-! ## `bindTo` -/

@[simp] theorem bindTo_pending (n : Nat) (tag : Option Tag) :
    (bindTo n tag s).pending = s.pending := by cases tag <;> rfl
@[simp] theorem bindTo_resetPin (n : Nat) (tag : Option Tag) :
    (bindTo n tag s).resetPin = s.resetPin := by cases tag <;> rfl
@[simp] theorem bindTo_key (n : Nat) (tag : Option Tag) : (bindTo n tag s).key = s.key := by cases tag <;> rfl
@[simp] theorem bindTo_crib (n : Nat) (tag : Option Tag) : (bindTo n tag s).crib = s.crib := by cases tag <;> rfl
@[simp] theorem bindTo_hall (n : Nat) (tag : Option Tag) : (bindTo n tag s).hall = s.hall := by cases tag <;> rfl
@[simp] theorem bindTo_cribTransit (n : Nat) (tag : Option Tag) :
    (bindTo n tag s).cribTransit = s.cribTransit := by cases tag <;> rfl
@[simp] theorem bindTo_hallTransit (n : Nat) (tag : Option Tag) :
    (bindTo n tag s).hallTransit = s.hallTransit := by cases tag <;> rfl
@[simp] theorem bindTo_cribEgress (n : Nat) (tag : Option Tag) :
    (bindTo n tag s).cribEgress = s.cribEgress := by cases tag <;> rfl
@[simp] theorem bindTo_hallEgress (n : Nat) (tag : Option Tag) :
    (bindTo n tag s).hallEgress = s.hallEgress := by cases tag <;> rfl
@[simp] theorem bindTo_guardBlocked (n : Nat) (tag : Option Tag) :
    (bindTo n tag s).guardBlocked = s.guardBlocked := by cases tag <;> rfl
@[simp] theorem bindTo_heads (n : Nat) (tag : Option Tag) : (bindTo n tag s).heads = s.heads := by cases tag <;> rfl
@[simp] theorem bindTo_types (n : Nat) (tag : Option Tag) : (bindTo n tag s).types = s.types := by cases tag <;> rfl
@[simp] theorem bindTo_sweep (n : Nat) (tag : Option Tag) : (bindTo n tag s).sweep = s.sweep := by cases tag <;> rfl
@[simp] theorem bindTo_assemblies (n : Nat) (tag : Option Tag) :
    (bindTo n tag s).assemblies = s.assemblies := by cases tag <;> rfl
@[simp] theorem bindTo_tagMap (n : Nat) (tag : Option Tag) :
    (bindTo n tag s).tagMap = tag.elim s.tagMap fun x => tableSet s.tagMap x.toNat n := by cases tag <;> rfl
@[simp] theorem bindTo_holds (n : Nat) (tag : Option Tag) : (bindTo n tag s).holds = s.holds := by cases tag <;> rfl
@[simp] theorem bindTo_issueMap (n : Nat) (tag : Option Tag) :
    (bindTo n tag s).issueMap = s.issueMap := by cases tag <;> rfl
@[simp] theorem bindTo_audit (n : Nat) (tag : Option Tag) : (bindTo n tag s).audit = s.audit := by cases tag <;> rfl
@[simp] theorem bindTo_tagDropped (n : Nat) (tag : Option Tag) :
    (bindTo n tag s).tagDropped = s.tagDropped := by cases tag <;> rfl
@[simp] theorem bindTo_machines (n : Nat) (tag : Option Tag) :
    (bindTo n tag s).machines = s.machines := by cases tag <;> rfl
@[simp] theorem bindTo_waitList (n : Nat) (tag : Option Tag) :
    (bindTo n tag s).waitList = s.waitList := by cases tag <;> rfl
@[simp] theorem bindTo_handoff (n : Nat) (tag : Option Tag) :
    (bindTo n tag s).handoff = s.handoff := by cases tag <;> rfl
@[simp] theorem bindTo_handoffDropped (n : Nat) (tag : Option Tag) :
    (bindTo n tag s).handoffDropped = s.handoffDropped := by cases tag <;> rfl
@[simp] theorem bindTo_usageMismatch (n : Nat) (tag : Option Tag) :
    (bindTo n tag s).usageMismatch = s.usageMismatch := by cases tag <;> rfl
@[simp] theorem bindTo_protection (n : Nat) (tag : Option Tag) :
    (bindTo n tag s).protection = s.protection := by cases tag <;> rfl
@[simp] theorem bindTo_protectionError (n : Nat) (tag : Option Tag) :
    (bindTo n tag s).protectionError = s.protectionError := by cases tag <;> rfl
@[simp] theorem bindTo_generation (n : Nat) (tag : Option Tag) :
    (bindTo n tag s).generation = s.generation := by cases tag <;> rfl
@[simp] theorem bindTo_mgmtDropped (n : Nat) (tag : Option Tag) :
    (bindTo n tag s).mgmtDropped = s.mgmtDropped := by cases tag <;> rfl
@[simp] theorem bindTo_answers (n : Nat) (tag : Option Tag) :
    (bindTo n tag s).answers = s.answers := by cases tag <;> rfl
@[simp] theorem bindTo_notices (n : Nat) (tag : Option Tag) :
    (bindTo n tag s).notices = s.notices := by cases tag <;> rfl
@[simp] theorem bindTo_discardedNotices (n : Nat) (tag : Option Tag) :
    (bindTo n tag s).discardedNotices = s.discardedNotices := by cases tag <;> rfl

/-! ## `unbindFrom` -/

@[simp] theorem unbindFrom_pending (tag : Option Tag) : (unbindFrom tag s).pending = s.pending := by cases tag <;> rfl
@[simp] theorem unbindFrom_resetPin (tag : Option Tag) :
    (unbindFrom tag s).resetPin = s.resetPin := by cases tag <;> rfl
@[simp] theorem unbindFrom_key (tag : Option Tag) : (unbindFrom tag s).key = s.key := by cases tag <;> rfl
@[simp] theorem unbindFrom_crib (tag : Option Tag) : (unbindFrom tag s).crib = s.crib := by cases tag <;> rfl
@[simp] theorem unbindFrom_hall (tag : Option Tag) : (unbindFrom tag s).hall = s.hall := by cases tag <;> rfl
@[simp] theorem unbindFrom_cribTransit (tag : Option Tag) :
    (unbindFrom tag s).cribTransit = s.cribTransit := by cases tag <;> rfl
@[simp] theorem unbindFrom_hallTransit (tag : Option Tag) :
    (unbindFrom tag s).hallTransit = s.hallTransit := by cases tag <;> rfl
@[simp] theorem unbindFrom_cribEgress (tag : Option Tag) :
    (unbindFrom tag s).cribEgress = s.cribEgress := by cases tag <;> rfl
@[simp] theorem unbindFrom_hallEgress (tag : Option Tag) :
    (unbindFrom tag s).hallEgress = s.hallEgress := by cases tag <;> rfl
@[simp] theorem unbindFrom_guardBlocked (tag : Option Tag) :
    (unbindFrom tag s).guardBlocked = s.guardBlocked := by cases tag <;> rfl
@[simp] theorem unbindFrom_heads (tag : Option Tag) : (unbindFrom tag s).heads = s.heads := by cases tag <;> rfl
@[simp] theorem unbindFrom_types (tag : Option Tag) : (unbindFrom tag s).types = s.types := by cases tag <;> rfl
@[simp] theorem unbindFrom_sweep (tag : Option Tag) : (unbindFrom tag s).sweep = s.sweep := by cases tag <;> rfl
@[simp] theorem unbindFrom_assemblies (tag : Option Tag) :
    (unbindFrom tag s).assemblies = s.assemblies := by cases tag <;> rfl
@[simp] theorem unbindFrom_tagMap (tag : Option Tag) :
    (unbindFrom tag s).tagMap = tag.elim s.tagMap fun x => tableErase s.tagMap x.toNat := by cases tag <;> rfl
@[simp] theorem unbindFrom_holds (tag : Option Tag) : (unbindFrom tag s).holds = s.holds := by cases tag <;> rfl
@[simp] theorem unbindFrom_issueMap (tag : Option Tag) :
    (unbindFrom tag s).issueMap = s.issueMap := by cases tag <;> rfl
@[simp] theorem unbindFrom_audit (tag : Option Tag) : (unbindFrom tag s).audit = s.audit := by cases tag <;> rfl
@[simp] theorem unbindFrom_tagDropped (tag : Option Tag) :
    (unbindFrom tag s).tagDropped = s.tagDropped := by cases tag <;> rfl
@[simp] theorem unbindFrom_machines (tag : Option Tag) :
    (unbindFrom tag s).machines = s.machines := by cases tag <;> rfl
@[simp] theorem unbindFrom_waitList (tag : Option Tag) :
    (unbindFrom tag s).waitList = s.waitList := by cases tag <;> rfl
@[simp] theorem unbindFrom_handoff (tag : Option Tag) : (unbindFrom tag s).handoff = s.handoff := by cases tag <;> rfl
@[simp] theorem unbindFrom_handoffDropped (tag : Option Tag) :
    (unbindFrom tag s).handoffDropped = s.handoffDropped := by cases tag <;> rfl
@[simp] theorem unbindFrom_usageMismatch (tag : Option Tag) :
    (unbindFrom tag s).usageMismatch = s.usageMismatch := by cases tag <;> rfl
@[simp] theorem unbindFrom_protection (tag : Option Tag) :
    (unbindFrom tag s).protection = s.protection := by cases tag <;> rfl
@[simp] theorem unbindFrom_protectionError (tag : Option Tag) :
    (unbindFrom tag s).protectionError = s.protectionError := by cases tag <;> rfl
@[simp] theorem unbindFrom_generation (tag : Option Tag) :
    (unbindFrom tag s).generation = s.generation := by cases tag <;> rfl
@[simp] theorem unbindFrom_mgmtDropped (tag : Option Tag) :
    (unbindFrom tag s).mgmtDropped = s.mgmtDropped := by cases tag <;> rfl
@[simp] theorem unbindFrom_answers (tag : Option Tag) : (unbindFrom tag s).answers = s.answers := by cases tag <;> rfl
@[simp] theorem unbindFrom_notices (tag : Option Tag) : (unbindFrom tag s).notices = s.notices := by cases tag <;> rfl
@[simp] theorem unbindFrom_discardedNotices (tag : Option Tag) :
    (unbindFrom tag s).discardedNotices = s.discardedNotices := by cases tag <;> rfl

/-! ## `clearedOtherwise` -/

@[simp] theorem clearedOtherwise_pending : (clearedOtherwise s).pending = s.pending := rfl
@[simp] theorem clearedOtherwise_resetPin : (clearedOtherwise s).resetPin = s.resetPin := rfl
@[simp] theorem clearedOtherwise_key : (clearedOtherwise s).key = s.key := rfl
@[simp] theorem clearedOtherwise_crib : (clearedOtherwise s).crib = s.crib := rfl
@[simp] theorem clearedOtherwise_hall : (clearedOtherwise s).hall = s.hall := rfl
@[simp] theorem clearedOtherwise_cribTransit : (clearedOtherwise s).cribTransit = s.cribTransit := rfl
@[simp] theorem clearedOtherwise_hallTransit : (clearedOtherwise s).hallTransit = s.hallTransit := rfl
@[simp] theorem clearedOtherwise_cribEgress : (clearedOtherwise s).cribEgress = s.cribEgress := rfl
@[simp] theorem clearedOtherwise_hallEgress : (clearedOtherwise s).hallEgress = s.hallEgress := rfl
@[simp] theorem clearedOtherwise_guardBlocked : (clearedOtherwise s).guardBlocked = s.guardBlocked := rfl
@[simp] theorem clearedOtherwise_heads : (clearedOtherwise s).heads = s.heads := rfl
@[simp] theorem clearedOtherwise_types : (clearedOtherwise s).types = s.types := rfl
@[simp] theorem clearedOtherwise_sweep :
    (clearedOtherwise s).sweep
      = { s.sweep with marks := s.sweep.marks - 1, otherwise := s.sweep.otherwise + 1 } := rfl
@[simp] theorem clearedOtherwise_assemblies : (clearedOtherwise s).assemblies = s.assemblies := rfl
@[simp] theorem clearedOtherwise_tagMap : (clearedOtherwise s).tagMap = s.tagMap := rfl
@[simp] theorem clearedOtherwise_holds : (clearedOtherwise s).holds = s.holds := rfl
@[simp] theorem clearedOtherwise_issueMap : (clearedOtherwise s).issueMap = s.issueMap := rfl
@[simp] theorem clearedOtherwise_audit : (clearedOtherwise s).audit = s.audit := rfl
@[simp] theorem clearedOtherwise_tagDropped : (clearedOtherwise s).tagDropped = s.tagDropped := rfl
@[simp] theorem clearedOtherwise_machines : (clearedOtherwise s).machines = s.machines := rfl
@[simp] theorem clearedOtherwise_waitList : (clearedOtherwise s).waitList = s.waitList := rfl
@[simp] theorem clearedOtherwise_handoff : (clearedOtherwise s).handoff = s.handoff := rfl
@[simp] theorem clearedOtherwise_handoffDropped : (clearedOtherwise s).handoffDropped = s.handoffDropped := rfl
@[simp] theorem clearedOtherwise_usageMismatch : (clearedOtherwise s).usageMismatch = s.usageMismatch := rfl
@[simp] theorem clearedOtherwise_protection : (clearedOtherwise s).protection = s.protection := rfl
@[simp] theorem clearedOtherwise_protectionError : (clearedOtherwise s).protectionError = s.protectionError := rfl
@[simp] theorem clearedOtherwise_generation : (clearedOtherwise s).generation = s.generation := rfl
@[simp] theorem clearedOtherwise_mgmtDropped : (clearedOtherwise s).mgmtDropped = s.mgmtDropped := rfl
@[simp] theorem clearedOtherwise_answers : (clearedOtherwise s).answers = s.answers := rfl
@[simp] theorem clearedOtherwise_notices : (clearedOtherwise s).notices = s.notices := rfl
@[simp] theorem clearedOtherwise_discardedNotices : (clearedOtherwise s).discardedNotices = s.discardedNotices := rfl

/-! ## `putHeadSlot` -/

@[simp] theorem putHeadSlot_pending (h : Fin 4) (x : Slot) : (putHeadSlot h x s).pending = s.pending := rfl
@[simp] theorem putHeadSlot_resetPin (h : Fin 4) (x : Slot) : (putHeadSlot h x s).resetPin = s.resetPin := rfl
@[simp] theorem putHeadSlot_key (h : Fin 4) (x : Slot) : (putHeadSlot h x s).key = s.key := rfl
@[simp] theorem putHeadSlot_crib (h : Fin 4) (x : Slot) : (putHeadSlot h x s).crib = s.crib := rfl
@[simp] theorem putHeadSlot_hall (h : Fin 4) (x : Slot) : (putHeadSlot h x s).hall = s.hall := rfl
@[simp] theorem putHeadSlot_cribTransit (h : Fin 4) (x : Slot) :
    (putHeadSlot h x s).cribTransit = s.cribTransit := rfl
@[simp] theorem putHeadSlot_hallTransit (h : Fin 4) (x : Slot) :
    (putHeadSlot h x s).hallTransit = s.hallTransit := rfl
@[simp] theorem putHeadSlot_cribEgress (h : Fin 4) (x : Slot) : (putHeadSlot h x s).cribEgress = s.cribEgress := rfl
@[simp] theorem putHeadSlot_hallEgress (h : Fin 4) (x : Slot) : (putHeadSlot h x s).hallEgress = s.hallEgress := rfl
@[simp] theorem putHeadSlot_guardBlocked (h : Fin 4) (x : Slot) :
    (putHeadSlot h x s).guardBlocked = s.guardBlocked := rfl
@[simp] theorem putHeadSlot_heads (h : Fin 4) (x : Slot) :
    (putHeadSlot h x s).heads = s.heads.set h { headAt s h with slot := x } := rfl
@[simp] theorem putHeadSlot_types (h : Fin 4) (x : Slot) : (putHeadSlot h x s).types = s.types := rfl
@[simp] theorem putHeadSlot_sweep (h : Fin 4) (x : Slot) : (putHeadSlot h x s).sweep = s.sweep := rfl
@[simp] theorem putHeadSlot_assemblies (h : Fin 4) (x : Slot) : (putHeadSlot h x s).assemblies = s.assemblies := rfl
@[simp] theorem putHeadSlot_tagMap (h : Fin 4) (x : Slot) : (putHeadSlot h x s).tagMap = s.tagMap := rfl
@[simp] theorem putHeadSlot_holds (h : Fin 4) (x : Slot) : (putHeadSlot h x s).holds = s.holds := rfl
@[simp] theorem putHeadSlot_issueMap (h : Fin 4) (x : Slot) : (putHeadSlot h x s).issueMap = s.issueMap := rfl
@[simp] theorem putHeadSlot_audit (h : Fin 4) (x : Slot) : (putHeadSlot h x s).audit = s.audit := rfl
@[simp] theorem putHeadSlot_tagDropped (h : Fin 4) (x : Slot) : (putHeadSlot h x s).tagDropped = s.tagDropped := rfl
@[simp] theorem putHeadSlot_machines (h : Fin 4) (x : Slot) : (putHeadSlot h x s).machines = s.machines := rfl
@[simp] theorem putHeadSlot_waitList (h : Fin 4) (x : Slot) : (putHeadSlot h x s).waitList = s.waitList := rfl
@[simp] theorem putHeadSlot_handoff (h : Fin 4) (x : Slot) : (putHeadSlot h x s).handoff = s.handoff := rfl
@[simp] theorem putHeadSlot_handoffDropped (h : Fin 4) (x : Slot) :
    (putHeadSlot h x s).handoffDropped = s.handoffDropped := rfl
@[simp] theorem putHeadSlot_usageMismatch (h : Fin 4) (x : Slot) :
    (putHeadSlot h x s).usageMismatch = s.usageMismatch := rfl
@[simp] theorem putHeadSlot_protection (h : Fin 4) (x : Slot) : (putHeadSlot h x s).protection = s.protection := rfl
@[simp] theorem putHeadSlot_protectionError (h : Fin 4) (x : Slot) :
    (putHeadSlot h x s).protectionError = s.protectionError := rfl
@[simp] theorem putHeadSlot_generation (h : Fin 4) (x : Slot) : (putHeadSlot h x s).generation = s.generation := rfl
@[simp] theorem putHeadSlot_mgmtDropped (h : Fin 4) (x : Slot) :
    (putHeadSlot h x s).mgmtDropped = s.mgmtDropped := rfl
@[simp] theorem putHeadSlot_answers (h : Fin 4) (x : Slot) : (putHeadSlot h x s).answers = s.answers := rfl
@[simp] theorem putHeadSlot_notices (h : Fin 4) (x : Slot) : (putHeadSlot h x s).notices = s.notices := rfl
@[simp] theorem putHeadSlot_discardedNotices (h : Fin 4) (x : Slot) :
    (putHeadSlot h x s).discardedNotices = s.discardedNotices := rfl

/-! ## `setState` -/

@[simp] theorem setState_pending (n : Nat) (x : AsmState) :
    (setState n x s).pending = s.pending := by unfold setState; split <;> rfl
@[simp] theorem setState_resetPin (n : Nat) (x : AsmState) :
    (setState n x s).resetPin = s.resetPin := by unfold setState; split <;> rfl
@[simp] theorem setState_key (n : Nat) (x : AsmState) :
    (setState n x s).key = s.key := by unfold setState; split <;> rfl
@[simp] theorem setState_crib (n : Nat) (x : AsmState) :
    (setState n x s).crib = s.crib := by unfold setState; split <;> rfl
@[simp] theorem setState_hall (n : Nat) (x : AsmState) :
    (setState n x s).hall = s.hall := by unfold setState; split <;> rfl
@[simp] theorem setState_cribTransit (n : Nat) (x : AsmState) :
    (setState n x s).cribTransit = s.cribTransit := by unfold setState; split <;> rfl
@[simp] theorem setState_hallTransit (n : Nat) (x : AsmState) :
    (setState n x s).hallTransit = s.hallTransit := by unfold setState; split <;> rfl
@[simp] theorem setState_cribEgress (n : Nat) (x : AsmState) :
    (setState n x s).cribEgress = s.cribEgress := by unfold setState; split <;> rfl
@[simp] theorem setState_hallEgress (n : Nat) (x : AsmState) :
    (setState n x s).hallEgress = s.hallEgress := by unfold setState; split <;> rfl
@[simp] theorem setState_guardBlocked (n : Nat) (x : AsmState) :
    (setState n x s).guardBlocked = s.guardBlocked := by unfold setState; split <;> rfl
@[simp] theorem setState_heads (n : Nat) (x : AsmState) :
    (setState n x s).heads = s.heads := by unfold setState; split <;> rfl
@[simp] theorem setState_types (n : Nat) (x : AsmState) :
    (setState n x s).types = s.types := by unfold setState; split <;> rfl
@[simp] theorem setState_sweep (n : Nat) (x : AsmState) :
    (setState n x s).sweep = s.sweep := by unfold setState; split <;> rfl
@[simp] theorem setState_tagMap (n : Nat) (x : AsmState) :
    (setState n x s).tagMap = s.tagMap := by unfold setState; split <;> rfl
@[simp] theorem setState_holds (n : Nat) (x : AsmState) :
    (setState n x s).holds = s.holds := by unfold setState; split <;> rfl
@[simp] theorem setState_issueMap (n : Nat) (x : AsmState) :
    (setState n x s).issueMap = s.issueMap := by unfold setState; split <;> rfl
@[simp] theorem setState_audit (n : Nat) (x : AsmState) :
    (setState n x s).audit = s.audit := by unfold setState; split <;> rfl
@[simp] theorem setState_tagDropped (n : Nat) (x : AsmState) :
    (setState n x s).tagDropped = s.tagDropped := by unfold setState; split <;> rfl
@[simp] theorem setState_machines (n : Nat) (x : AsmState) :
    (setState n x s).machines = s.machines := by unfold setState; split <;> rfl
@[simp] theorem setState_waitList (n : Nat) (x : AsmState) :
    (setState n x s).waitList = s.waitList := by unfold setState; split <;> rfl
@[simp] theorem setState_handoff (n : Nat) (x : AsmState) :
    (setState n x s).handoff = s.handoff := by unfold setState; split <;> rfl
@[simp] theorem setState_handoffDropped (n : Nat) (x : AsmState) :
    (setState n x s).handoffDropped = s.handoffDropped := by unfold setState; split <;> rfl
@[simp] theorem setState_usageMismatch (n : Nat) (x : AsmState) :
    (setState n x s).usageMismatch = s.usageMismatch := by unfold setState; split <;> rfl
@[simp] theorem setState_protection (n : Nat) (x : AsmState) :
    (setState n x s).protection = s.protection := by unfold setState; split <;> rfl
@[simp] theorem setState_protectionError (n : Nat) (x : AsmState) :
    (setState n x s).protectionError = s.protectionError := by unfold setState; split <;> rfl
@[simp] theorem setState_generation (n : Nat) (x : AsmState) :
    (setState n x s).generation = s.generation := by unfold setState; split <;> rfl
@[simp] theorem setState_mgmtDropped (n : Nat) (x : AsmState) :
    (setState n x s).mgmtDropped = s.mgmtDropped := by unfold setState; split <;> rfl
@[simp] theorem setState_answers (n : Nat) (x : AsmState) :
    (setState n x s).answers = s.answers := by unfold setState; split <;> rfl
@[simp] theorem setState_notices (n : Nat) (x : AsmState) :
    (setState n x s).notices = s.notices := by unfold setState; split <;> rfl
@[simp] theorem setState_discardedNotices (n : Nat) (x : AsmState) :
    (setState n x s).discardedNotices = s.discardedNotices := by unfold setState; split <;> rfl

/-! ## `grantCrib` -/

@[simp] theorem grantCrib_pending : (grantCrib s).pending = s.pending := by unfold grantCrib; (repeat' split) <;> rfl
@[simp] theorem grantCrib_resetPin :
    (grantCrib s).resetPin = s.resetPin := by unfold grantCrib; (repeat' split) <;> rfl
@[simp] theorem grantCrib_key : (grantCrib s).key = s.key := by unfold grantCrib; (repeat' split) <;> rfl
@[simp] theorem grantCrib_crib : (grantCrib s).crib = s.crib := by unfold grantCrib; (repeat' split) <;> rfl
@[simp] theorem grantCrib_hall : (grantCrib s).hall = s.hall := by unfold grantCrib; (repeat' split) <;> rfl
@[simp] theorem grantCrib_cribTransit :
    (grantCrib s).cribTransit = s.cribTransit := by unfold grantCrib; (repeat' split) <;> rfl
@[simp] theorem grantCrib_hallTransit :
    (grantCrib s).hallTransit = s.hallTransit := by unfold grantCrib; (repeat' split) <;> rfl
@[simp] theorem grantCrib_hallEgress :
    (grantCrib s).hallEgress = s.hallEgress := by unfold grantCrib; (repeat' split) <;> rfl
@[simp] theorem grantCrib_guardBlocked :
    (grantCrib s).guardBlocked = s.guardBlocked := by unfold grantCrib; (repeat' split) <;> rfl
@[simp] theorem grantCrib_heads : (grantCrib s).heads = s.heads := by unfold grantCrib; (repeat' split) <;> rfl
@[simp] theorem grantCrib_types : (grantCrib s).types = s.types := by unfold grantCrib; (repeat' split) <;> rfl
@[simp] theorem grantCrib_sweep : (grantCrib s).sweep = s.sweep := by unfold grantCrib; (repeat' split) <;> rfl
@[simp] theorem grantCrib_assemblies :
    (grantCrib s).assemblies = s.assemblies := by unfold grantCrib; (repeat' split) <;> rfl
@[simp] theorem grantCrib_tagMap : (grantCrib s).tagMap = s.tagMap := by unfold grantCrib; (repeat' split) <;> rfl
@[simp] theorem grantCrib_holds : (grantCrib s).holds = s.holds := by unfold grantCrib; (repeat' split) <;> rfl
@[simp] theorem grantCrib_issueMap :
    (grantCrib s).issueMap = s.issueMap := by unfold grantCrib; (repeat' split) <;> rfl
@[simp] theorem grantCrib_audit : (grantCrib s).audit = s.audit := by unfold grantCrib; (repeat' split) <;> rfl
@[simp] theorem grantCrib_tagDropped :
    (grantCrib s).tagDropped = s.tagDropped := by unfold grantCrib; (repeat' split) <;> rfl
@[simp] theorem grantCrib_machines :
    (grantCrib s).machines = s.machines := by unfold grantCrib; (repeat' split) <;> rfl
@[simp] theorem grantCrib_waitList :
    (grantCrib s).waitList = s.waitList := by unfold grantCrib; (repeat' split) <;> rfl
@[simp] theorem grantCrib_handoff : (grantCrib s).handoff = s.handoff := by unfold grantCrib; (repeat' split) <;> rfl
@[simp] theorem grantCrib_handoffDropped :
    (grantCrib s).handoffDropped = s.handoffDropped := by unfold grantCrib; (repeat' split) <;> rfl
@[simp] theorem grantCrib_usageMismatch :
    (grantCrib s).usageMismatch = s.usageMismatch := by unfold grantCrib; (repeat' split) <;> rfl
@[simp] theorem grantCrib_protection :
    (grantCrib s).protection = s.protection := by unfold grantCrib; (repeat' split) <;> rfl
@[simp] theorem grantCrib_protectionError :
    (grantCrib s).protectionError = s.protectionError := by unfold grantCrib; (repeat' split) <;> rfl
@[simp] theorem grantCrib_generation :
    (grantCrib s).generation = s.generation := by unfold grantCrib; (repeat' split) <;> rfl
@[simp] theorem grantCrib_mgmtDropped :
    (grantCrib s).mgmtDropped = s.mgmtDropped := by unfold grantCrib; (repeat' split) <;> rfl
@[simp] theorem grantCrib_answers : (grantCrib s).answers = s.answers := by unfold grantCrib; (repeat' split) <;> rfl
@[simp] theorem grantCrib_notices : (grantCrib s).notices = s.notices := by unfold grantCrib; (repeat' split) <;> rfl
@[simp] theorem grantCrib_discardedNotices :
    (grantCrib s).discardedNotices = s.discardedNotices := by unfold grantCrib; (repeat' split) <;> rfl

/-! ## `grantHall` -/

@[simp] theorem grantHall_pending : (grantHall s).pending = s.pending := by unfold grantHall; (repeat' split) <;> rfl
@[simp] theorem grantHall_resetPin :
    (grantHall s).resetPin = s.resetPin := by unfold grantHall; (repeat' split) <;> rfl
@[simp] theorem grantHall_key : (grantHall s).key = s.key := by unfold grantHall; (repeat' split) <;> rfl
@[simp] theorem grantHall_crib : (grantHall s).crib = s.crib := by unfold grantHall; (repeat' split) <;> rfl
@[simp] theorem grantHall_hall : (grantHall s).hall = s.hall := by unfold grantHall; (repeat' split) <;> rfl
@[simp] theorem grantHall_cribTransit :
    (grantHall s).cribTransit = s.cribTransit := by unfold grantHall; (repeat' split) <;> rfl
@[simp] theorem grantHall_hallTransit :
    (grantHall s).hallTransit = s.hallTransit := by unfold grantHall; (repeat' split) <;> rfl
@[simp] theorem grantHall_cribEgress :
    (grantHall s).cribEgress = s.cribEgress := by unfold grantHall; (repeat' split) <;> rfl
@[simp] theorem grantHall_guardBlocked :
    (grantHall s).guardBlocked = s.guardBlocked := by unfold grantHall; (repeat' split) <;> rfl
@[simp] theorem grantHall_heads : (grantHall s).heads = s.heads := by unfold grantHall; (repeat' split) <;> rfl
@[simp] theorem grantHall_types : (grantHall s).types = s.types := by unfold grantHall; (repeat' split) <;> rfl
@[simp] theorem grantHall_sweep : (grantHall s).sweep = s.sweep := by unfold grantHall; (repeat' split) <;> rfl
@[simp] theorem grantHall_assemblies :
    (grantHall s).assemblies = s.assemblies := by unfold grantHall; (repeat' split) <;> rfl
@[simp] theorem grantHall_tagMap : (grantHall s).tagMap = s.tagMap := by unfold grantHall; (repeat' split) <;> rfl
@[simp] theorem grantHall_holds : (grantHall s).holds = s.holds := by unfold grantHall; (repeat' split) <;> rfl
@[simp] theorem grantHall_issueMap :
    (grantHall s).issueMap = s.issueMap := by unfold grantHall; (repeat' split) <;> rfl
@[simp] theorem grantHall_audit : (grantHall s).audit = s.audit := by unfold grantHall; (repeat' split) <;> rfl
@[simp] theorem grantHall_tagDropped :
    (grantHall s).tagDropped = s.tagDropped := by unfold grantHall; (repeat' split) <;> rfl
@[simp] theorem grantHall_machines :
    (grantHall s).machines = s.machines := by unfold grantHall; (repeat' split) <;> rfl
@[simp] theorem grantHall_waitList :
    (grantHall s).waitList = s.waitList := by unfold grantHall; (repeat' split) <;> rfl
@[simp] theorem grantHall_handoff : (grantHall s).handoff = s.handoff := by unfold grantHall; (repeat' split) <;> rfl
@[simp] theorem grantHall_handoffDropped :
    (grantHall s).handoffDropped = s.handoffDropped := by unfold grantHall; (repeat' split) <;> rfl
@[simp] theorem grantHall_usageMismatch :
    (grantHall s).usageMismatch = s.usageMismatch := by unfold grantHall; (repeat' split) <;> rfl
@[simp] theorem grantHall_protection :
    (grantHall s).protection = s.protection := by unfold grantHall; (repeat' split) <;> rfl
@[simp] theorem grantHall_protectionError :
    (grantHall s).protectionError = s.protectionError := by unfold grantHall; (repeat' split) <;> rfl
@[simp] theorem grantHall_generation :
    (grantHall s).generation = s.generation := by unfold grantHall; (repeat' split) <;> rfl
@[simp] theorem grantHall_mgmtDropped :
    (grantHall s).mgmtDropped = s.mgmtDropped := by unfold grantHall; (repeat' split) <;> rfl
@[simp] theorem grantHall_answers : (grantHall s).answers = s.answers := by unfold grantHall; (repeat' split) <;> rfl
@[simp] theorem grantHall_notices : (grantHall s).notices = s.notices := by unfold grantHall; (repeat' split) <;> rfl
@[simp] theorem grantHall_discardedNotices :
    (grantHall s).discardedNotices = s.discardedNotices := by unfold grantHall; (repeat' split) <;> rfl

/-! ## `grants` -/

@[simp] theorem grants_pending : (grants s).pending = s.pending := by simp [grants]
@[simp] theorem grants_resetPin : (grants s).resetPin = s.resetPin := by simp [grants]
@[simp] theorem grants_key : (grants s).key = s.key := by simp [grants]
@[simp] theorem grants_crib : (grants s).crib = s.crib := by simp [grants]
@[simp] theorem grants_hall : (grants s).hall = s.hall := by simp [grants]
@[simp] theorem grants_cribTransit : (grants s).cribTransit = s.cribTransit := by simp [grants]
@[simp] theorem grants_hallTransit : (grants s).hallTransit = s.hallTransit := by simp [grants]
@[simp] theorem grants_guardBlocked : (grants s).guardBlocked = s.guardBlocked := by simp [grants]
@[simp] theorem grants_heads : (grants s).heads = s.heads := by simp [grants]
@[simp] theorem grants_types : (grants s).types = s.types := by simp [grants]
@[simp] theorem grants_sweep : (grants s).sweep = s.sweep := by simp [grants]
@[simp] theorem grants_assemblies : (grants s).assemblies = s.assemblies := by simp [grants]
@[simp] theorem grants_tagMap : (grants s).tagMap = s.tagMap := by simp [grants]
@[simp] theorem grants_holds : (grants s).holds = s.holds := by simp [grants]
@[simp] theorem grants_issueMap : (grants s).issueMap = s.issueMap := by simp [grants]
@[simp] theorem grants_audit : (grants s).audit = s.audit := by simp [grants]
@[simp] theorem grants_tagDropped : (grants s).tagDropped = s.tagDropped := by simp [grants]
@[simp] theorem grants_machines : (grants s).machines = s.machines := by simp [grants]
@[simp] theorem grants_waitList : (grants s).waitList = s.waitList := by simp [grants]
@[simp] theorem grants_handoff : (grants s).handoff = s.handoff := by simp [grants]
@[simp] theorem grants_handoffDropped : (grants s).handoffDropped = s.handoffDropped := by simp [grants]
@[simp] theorem grants_usageMismatch : (grants s).usageMismatch = s.usageMismatch := by simp [grants]
@[simp] theorem grants_protection : (grants s).protection = s.protection := by simp [grants]
@[simp] theorem grants_protectionError : (grants s).protectionError = s.protectionError := by simp [grants]
@[simp] theorem grants_generation : (grants s).generation = s.generation := by simp [grants]
@[simp] theorem grants_mgmtDropped : (grants s).mgmtDropped = s.mgmtDropped := by simp [grants]
@[simp] theorem grants_answers : (grants s).answers = s.answers := by simp [grants]
@[simp] theorem grants_notices : (grants s).notices = s.notices := by simp [grants]
@[simp] theorem grants_discardedNotices : (grants s).discardedNotices = s.discardedNotices := by simp [grants]

/-! ## What the readers see: only their own part of the state -/

@[simp] theorem headAt_putAssembly (n : Nat) (r : Assembly) :
    headAt (putAssembly n r s) = headAt s := by
  funext x; simp [headAt]
@[simp] theorem headAt_putType (n : Nat) (r : TypeRecord) :
    headAt (putType n r s) = headAt s := by
  funext x; simp [headAt]
@[simp] theorem headAt_putMachine (m : Nat) (x : MachineDef) :
    headAt (putMachine m x s) = headAt s := by
  funext x; simp [headAt]
@[simp] theorem headAt_heard (p : Port) : headAt (heard p s) = headAt s := by
  funext x; simp [headAt]
@[simp] theorem headAt_countLine (p : Port) (c : LineCounter) :
    headAt (countLine p c s) = headAt s := by
  funext x; simp [headAt]
@[simp] theorem headAt_notify (b : NoticeBody) : headAt (notify b s) = headAt s := by
  funext x; simp [headAt]
@[simp] theorem headAt_advanceGeneration : headAt (advanceGeneration s) = headAt s := by
  funext x; simp [headAt]
@[simp] theorem headAt_countIn (n : Nat) : headAt (countIn n s) = headAt s := by
  funext x; simp [headAt]
@[simp] theorem headAt_countOut (n : Nat) : headAt (countOut n s) = headAt s := by
  funext x; simp [headAt]
@[simp] theorem headAt_bindTo (n : Nat) (tag : Option Tag) :
    headAt (bindTo n tag s) = headAt s := by
  funext x; simp [headAt]
@[simp] theorem headAt_unbindFrom (tag : Option Tag) :
    headAt (unbindFrom tag s) = headAt s := by
  funext x; simp [headAt]
@[simp] theorem headAt_clearedOtherwise : headAt (clearedOtherwise s) = headAt s := by
  funext x; simp [headAt]
@[simp] theorem headAt_setState (n : Nat) (x : AsmState) :
    headAt (setState n x s) = headAt s := by
  funext x; simp [headAt]
@[simp] theorem headAt_grants : headAt (grants s) = headAt s := by
  funext x; simp [headAt]
@[simp] theorem typeAt_putAssembly (n : Nat) (r : Assembly) :
    typeAt (putAssembly n r s) = typeAt s := by
  funext x; simp [typeAt]
@[simp] theorem typeAt_putHead (h : Fin 4) (x : Head) :
    typeAt (putHead h x s) = typeAt s := by
  funext x; simp [typeAt]
@[simp] theorem typeAt_putMachine (m : Nat) (x : MachineDef) :
    typeAt (putMachine m x s) = typeAt s := by
  funext x; simp [typeAt]
@[simp] theorem typeAt_heard (p : Port) : typeAt (heard p s) = typeAt s := by
  funext x; simp [typeAt]
@[simp] theorem typeAt_countLine (p : Port) (c : LineCounter) :
    typeAt (countLine p c s) = typeAt s := by
  funext x; simp [typeAt]
@[simp] theorem typeAt_notify (b : NoticeBody) : typeAt (notify b s) = typeAt s := by
  funext x; simp [typeAt]
@[simp] theorem typeAt_advanceGeneration : typeAt (advanceGeneration s) = typeAt s := by
  funext x; simp [typeAt]
@[simp] theorem typeAt_bindTo (n : Nat) (tag : Option Tag) :
    typeAt (bindTo n tag s) = typeAt s := by
  funext x; simp [typeAt]
@[simp] theorem typeAt_unbindFrom (tag : Option Tag) :
    typeAt (unbindFrom tag s) = typeAt s := by
  funext x; simp [typeAt]
@[simp] theorem typeAt_clearedOtherwise : typeAt (clearedOtherwise s) = typeAt s := by
  funext x; simp [typeAt]
@[simp] theorem typeAt_putHeadSlot (h : Fin 4) (x : Slot) :
    typeAt (putHeadSlot h x s) = typeAt s := by
  funext x; simp [typeAt]
@[simp] theorem typeAt_setState (n : Nat) (x : AsmState) :
    typeAt (setState n x s) = typeAt s := by
  funext x; simp [typeAt]
@[simp] theorem typeAt_grants : typeAt (grants s) = typeAt s := by
  funext x; simp [typeAt]
@[simp] theorem machineAt_putAssembly (n : Nat) (r : Assembly) :
    machineAt (putAssembly n r s) = machineAt s := by
  funext x; simp [machineAt]
@[simp] theorem machineAt_putType (n : Nat) (r : TypeRecord) :
    machineAt (putType n r s) = machineAt s := by
  funext x; simp [machineAt]
@[simp] theorem machineAt_putHead (h : Fin 4) (x : Head) :
    machineAt (putHead h x s) = machineAt s := by
  funext x; simp [machineAt]
@[simp] theorem machineAt_heard (p : Port) : machineAt (heard p s) = machineAt s := by
  funext x; simp [machineAt]
@[simp] theorem machineAt_countLine (p : Port) (c : LineCounter) :
    machineAt (countLine p c s) = machineAt s := by
  funext x; simp [machineAt]
@[simp] theorem machineAt_notify (b : NoticeBody) :
    machineAt (notify b s) = machineAt s := by
  funext x; simp [machineAt]
@[simp] theorem machineAt_advanceGeneration :
    machineAt (advanceGeneration s) = machineAt s := by
  funext x; simp [machineAt]
@[simp] theorem machineAt_countIn (n : Nat) : machineAt (countIn n s) = machineAt s := by
  funext x; simp [machineAt]
@[simp] theorem machineAt_countOut (n : Nat) :
    machineAt (countOut n s) = machineAt s := by
  funext x; simp [machineAt]
@[simp] theorem machineAt_bindTo (n : Nat) (tag : Option Tag) :
    machineAt (bindTo n tag s) = machineAt s := by
  funext x; simp [machineAt]
@[simp] theorem machineAt_unbindFrom (tag : Option Tag) :
    machineAt (unbindFrom tag s) = machineAt s := by
  funext x; simp [machineAt]
@[simp] theorem machineAt_clearedOtherwise :
    machineAt (clearedOtherwise s) = machineAt s := by
  funext x; simp [machineAt]
@[simp] theorem machineAt_putHeadSlot (h : Fin 4) (x : Slot) :
    machineAt (putHeadSlot h x s) = machineAt s := by
  funext x; simp [machineAt]
@[simp] theorem machineAt_setState (n : Nat) (x : AsmState) :
    machineAt (setState n x s) = machineAt s := by
  funext x; simp [machineAt]
@[simp] theorem machineAt_grants : machineAt (grants s) = machineAt s := by
  funext x; simp [machineAt]
@[simp] theorem recordAt_putType (n : Nat) (r : TypeRecord) :
    recordAt (putType n r s) = recordAt s := by
  funext x; simp [recordAt]
@[simp] theorem recordAt_putHead (h : Fin 4) (x : Head) :
    recordAt (putHead h x s) = recordAt s := by
  funext x; simp [recordAt]
@[simp] theorem recordAt_putMachine (m : Nat) (x : MachineDef) :
    recordAt (putMachine m x s) = recordAt s := by
  funext x; simp [recordAt]
@[simp] theorem recordAt_heard (p : Port) : recordAt (heard p s) = recordAt s := by
  funext x; simp [recordAt]
@[simp] theorem recordAt_countLine (p : Port) (c : LineCounter) :
    recordAt (countLine p c s) = recordAt s := by
  funext x; simp [recordAt]
@[simp] theorem recordAt_notify (b : NoticeBody) :
    recordAt (notify b s) = recordAt s := by
  funext x; simp [recordAt]
@[simp] theorem recordAt_advanceGeneration :
    recordAt (advanceGeneration s) = recordAt s := by
  funext x; simp [recordAt]
@[simp] theorem recordAt_countIn (n : Nat) : recordAt (countIn n s) = recordAt s := by
  funext x; simp [recordAt]
@[simp] theorem recordAt_countOut (n : Nat) : recordAt (countOut n s) = recordAt s := by
  funext x; simp [recordAt]
@[simp] theorem recordAt_bindTo (n : Nat) (tag : Option Tag) :
    recordAt (bindTo n tag s) = recordAt s := by
  funext x; simp [recordAt]
@[simp] theorem recordAt_unbindFrom (tag : Option Tag) :
    recordAt (unbindFrom tag s) = recordAt s := by
  funext x; simp [recordAt]
@[simp] theorem recordAt_clearedOtherwise :
    recordAt (clearedOtherwise s) = recordAt s := by
  funext x; simp [recordAt]
@[simp] theorem recordAt_putHeadSlot (h : Fin 4) (x : Slot) :
    recordAt (putHeadSlot h x s) = recordAt s := by
  funext x; simp [recordAt]
@[simp] theorem recordAt_grants : recordAt (grants s) = recordAt s := by
  funext x; simp [recordAt]
@[simp] theorem occupant_putAssembly (n : Nat) (r : Assembly) :
    occupant (putAssembly n r s) = occupant s := by
  funext x; simp [occupant]
@[simp] theorem occupant_putType (n : Nat) (r : TypeRecord) :
    occupant (putType n r s) = occupant s := by
  funext x; simp [occupant]
@[simp] theorem occupant_putHead (h : Fin 4) (x : Head) :
    occupant (putHead h x s) = occupant s := by
  funext x; simp [occupant]
@[simp] theorem occupant_putMachine (m : Nat) (x : MachineDef) :
    occupant (putMachine m x s) = occupant s := by
  funext x; simp [occupant]
@[simp] theorem occupant_heard (p : Port) : occupant (heard p s) = occupant s := by
  funext x; simp [occupant]
@[simp] theorem occupant_countLine (p : Port) (c : LineCounter) :
    occupant (countLine p c s) = occupant s := by
  funext x; simp [occupant]
@[simp] theorem occupant_notify (b : NoticeBody) :
    occupant (notify b s) = occupant s := by
  funext x; simp [occupant]
@[simp] theorem occupant_advanceGeneration :
    occupant (advanceGeneration s) = occupant s := by
  funext x; simp [occupant]
@[simp] theorem occupant_countIn (n : Nat) : occupant (countIn n s) = occupant s := by
  funext x; simp [occupant]
@[simp] theorem occupant_countOut (n : Nat) : occupant (countOut n s) = occupant s := by
  funext x; simp [occupant]
@[simp] theorem occupant_bindTo (n : Nat) (tag : Option Tag) :
    occupant (bindTo n tag s) = occupant s := by
  funext x; simp [occupant]
@[simp] theorem occupant_unbindFrom (tag : Option Tag) :
    occupant (unbindFrom tag s) = occupant s := by
  funext x; simp [occupant]
@[simp] theorem occupant_clearedOtherwise :
    occupant (clearedOtherwise s) = occupant s := by
  funext x; simp [occupant]
@[simp] theorem occupant_putHeadSlot (h : Fin 4) (x : Slot) :
    occupant (putHeadSlot h x s) = occupant s := by
  funext x; simp [occupant]
@[simp] theorem occupant_setState (n : Nat) (x : AsmState) :
    occupant (setState n x s) = occupant s := by
  funext x; simp [occupant]
@[simp] theorem occupant_grants : occupant (grants s) = occupant s := by
  funext x; simp [occupant]
@[simp] theorem isHeld_putAssembly (n : Nat) (r : Assembly) :
    isHeld (putAssembly n r s) = isHeld s := by
  funext x; simp [isHeld]
@[simp] theorem isHeld_putType (n : Nat) (r : TypeRecord) :
    isHeld (putType n r s) = isHeld s := by
  funext x; simp [isHeld]
@[simp] theorem isHeld_putHead (h : Fin 4) (x : Head) :
    isHeld (putHead h x s) = isHeld s := by
  funext x; simp [isHeld]
@[simp] theorem isHeld_putMachine (m : Nat) (x : MachineDef) :
    isHeld (putMachine m x s) = isHeld s := by
  funext x; simp [isHeld]
@[simp] theorem isHeld_heard (p : Port) : isHeld (heard p s) = isHeld s := by
  funext x; simp [isHeld]
@[simp] theorem isHeld_countLine (p : Port) (c : LineCounter) :
    isHeld (countLine p c s) = isHeld s := by
  funext x; simp [isHeld]
@[simp] theorem isHeld_notify (b : NoticeBody) : isHeld (notify b s) = isHeld s := by
  funext x; simp [isHeld]
@[simp] theorem isHeld_advanceGeneration : isHeld (advanceGeneration s) = isHeld s := by
  funext x; simp [isHeld]
@[simp] theorem isHeld_countIn (n : Nat) : isHeld (countIn n s) = isHeld s := by
  funext x; simp [isHeld]
@[simp] theorem isHeld_countOut (n : Nat) : isHeld (countOut n s) = isHeld s := by
  funext x; simp [isHeld]
@[simp] theorem isHeld_bindTo (n : Nat) (tag : Option Tag) :
    isHeld (bindTo n tag s) = isHeld s := by
  funext x; simp [isHeld]
@[simp] theorem isHeld_unbindFrom (tag : Option Tag) :
    isHeld (unbindFrom tag s) = isHeld s := by
  funext x; simp [isHeld]
@[simp] theorem isHeld_clearedOtherwise : isHeld (clearedOtherwise s) = isHeld s := by
  funext x; simp [isHeld]
@[simp] theorem isHeld_putHeadSlot (h : Fin 4) (x : Slot) :
    isHeld (putHeadSlot h x s) = isHeld s := by
  funext x; simp [isHeld]
@[simp] theorem isHeld_setState (n : Nat) (x : AsmState) :
    isHeld (setState n x s) = isHeld s := by
  funext x; simp [isHeld]
@[simp] theorem isHeld_grants : isHeld (grants s) = isHeld s := by
  funext x; simp [isHeld]
@[simp] theorem machineDefined_putAssembly (n : Nat) (r : Assembly) :
    machineDefined (putAssembly n r s) = machineDefined s := by
  funext x; simp [machineDefined, machineAt]
@[simp] theorem machineDefined_putType (n : Nat) (r : TypeRecord) :
    machineDefined (putType n r s) = machineDefined s := by
  funext x; simp [machineDefined, machineAt]
@[simp] theorem machineDefined_putHead (h : Fin 4) (x : Head) :
    machineDefined (putHead h x s) = machineDefined s := by
  funext x; simp [machineDefined, machineAt]
@[simp] theorem machineDefined_heard (p : Port) :
    machineDefined (heard p s) = machineDefined s := by
  funext x; simp [machineDefined, machineAt]
@[simp] theorem machineDefined_countLine (p : Port) (c : LineCounter) :
    machineDefined (countLine p c s) = machineDefined s := by
  funext x; simp [machineDefined, machineAt]
@[simp] theorem machineDefined_notify (b : NoticeBody) :
    machineDefined (notify b s) = machineDefined s := by
  funext x; simp [machineDefined, machineAt]
@[simp] theorem machineDefined_advanceGeneration :
    machineDefined (advanceGeneration s) = machineDefined s := by
  funext x; simp [machineDefined, machineAt]
@[simp] theorem machineDefined_countIn (n : Nat) :
    machineDefined (countIn n s) = machineDefined s := by
  funext x; simp [machineDefined, machineAt]
@[simp] theorem machineDefined_countOut (n : Nat) :
    machineDefined (countOut n s) = machineDefined s := by
  funext x; simp [machineDefined, machineAt]
@[simp] theorem machineDefined_bindTo (n : Nat) (tag : Option Tag) :
    machineDefined (bindTo n tag s) = machineDefined s := by
  funext x; simp [machineDefined, machineAt]
@[simp] theorem machineDefined_unbindFrom (tag : Option Tag) :
    machineDefined (unbindFrom tag s) = machineDefined s := by
  funext x; simp [machineDefined, machineAt]
@[simp] theorem machineDefined_clearedOtherwise :
    machineDefined (clearedOtherwise s) = machineDefined s := by
  funext x; simp [machineDefined, machineAt]
@[simp] theorem machineDefined_putHeadSlot (h : Fin 4) (x : Slot) :
    machineDefined (putHeadSlot h x s) = machineDefined s := by
  funext x; simp [machineDefined, machineAt]
@[simp] theorem machineDefined_setState (n : Nat) (x : AsmState) :
    machineDefined (setState n x s) = machineDefined s := by
  funext x; simp [machineDefined, machineAt]
@[simp] theorem machineDefined_grants :
    machineDefined (grants s) = machineDefined s := by
  funext x; simp [machineDefined, machineAt]
@[simp] theorem isWaiting_putAssembly (n : Nat) (r : Assembly) :
    isWaiting (putAssembly n r s) = isWaiting s := by
  funext x; simp [isWaiting]
@[simp] theorem isWaiting_putType (n : Nat) (r : TypeRecord) :
    isWaiting (putType n r s) = isWaiting s := by
  funext x; simp [isWaiting]
@[simp] theorem isWaiting_putHead (h : Fin 4) (x : Head) :
    isWaiting (putHead h x s) = isWaiting s := by
  funext x; simp [isWaiting]
@[simp] theorem isWaiting_putMachine (m : Nat) (x : MachineDef) :
    isWaiting (putMachine m x s) = isWaiting s := by
  funext x; simp [isWaiting]
@[simp] theorem isWaiting_heard (p : Port) : isWaiting (heard p s) = isWaiting s := by
  funext x; simp [isWaiting]
@[simp] theorem isWaiting_countLine (p : Port) (c : LineCounter) :
    isWaiting (countLine p c s) = isWaiting s := by
  funext x; simp [isWaiting]
@[simp] theorem isWaiting_notify (b : NoticeBody) :
    isWaiting (notify b s) = isWaiting s := by
  funext x; simp [isWaiting]
@[simp] theorem isWaiting_advanceGeneration :
    isWaiting (advanceGeneration s) = isWaiting s := by
  funext x; simp [isWaiting]
@[simp] theorem isWaiting_countIn (n : Nat) : isWaiting (countIn n s) = isWaiting s := by
  funext x; simp [isWaiting]
@[simp] theorem isWaiting_countOut (n : Nat) :
    isWaiting (countOut n s) = isWaiting s := by
  funext x; simp [isWaiting]
@[simp] theorem isWaiting_bindTo (n : Nat) (tag : Option Tag) :
    isWaiting (bindTo n tag s) = isWaiting s := by
  funext x; simp [isWaiting]
@[simp] theorem isWaiting_unbindFrom (tag : Option Tag) :
    isWaiting (unbindFrom tag s) = isWaiting s := by
  funext x; simp [isWaiting]
@[simp] theorem isWaiting_clearedOtherwise :
    isWaiting (clearedOtherwise s) = isWaiting s := by
  funext x; simp [isWaiting]
@[simp] theorem isWaiting_putHeadSlot (h : Fin 4) (x : Slot) :
    isWaiting (putHeadSlot h x s) = isWaiting s := by
  funext x; simp [isWaiting]
@[simp] theorem isWaiting_setState (n : Nat) (x : AsmState) :
    isWaiting (setState n x s) = isWaiting s := by
  funext x; simp [isWaiting]
@[simp] theorem isWaiting_grants : isWaiting (grants s) = isWaiting s := by
  funext x; simp [isWaiting]
@[simp] theorem waitingFor_putAssembly (n : Nat) (r : Assembly) :
    waitingFor (putAssembly n r s) = waitingFor s := by
  funext x; simp [waitingFor]
@[simp] theorem waitingFor_putType (n : Nat) (r : TypeRecord) :
    waitingFor (putType n r s) = waitingFor s := by
  funext x; simp [waitingFor]
@[simp] theorem waitingFor_putHead (h : Fin 4) (x : Head) :
    waitingFor (putHead h x s) = waitingFor s := by
  funext x; simp [waitingFor]
@[simp] theorem waitingFor_putMachine (m : Nat) (x : MachineDef) :
    waitingFor (putMachine m x s) = waitingFor s := by
  funext x; simp [waitingFor]
@[simp] theorem waitingFor_heard (p : Port) :
    waitingFor (heard p s) = waitingFor s := by
  funext x; simp [waitingFor]
@[simp] theorem waitingFor_countLine (p : Port) (c : LineCounter) :
    waitingFor (countLine p c s) = waitingFor s := by
  funext x; simp [waitingFor]
@[simp] theorem waitingFor_notify (b : NoticeBody) :
    waitingFor (notify b s) = waitingFor s := by
  funext x; simp [waitingFor]
@[simp] theorem waitingFor_advanceGeneration :
    waitingFor (advanceGeneration s) = waitingFor s := by
  funext x; simp [waitingFor]
@[simp] theorem waitingFor_countIn (n : Nat) :
    waitingFor (countIn n s) = waitingFor s := by
  funext x; simp [waitingFor]
@[simp] theorem waitingFor_countOut (n : Nat) :
    waitingFor (countOut n s) = waitingFor s := by
  funext x; simp [waitingFor]
@[simp] theorem waitingFor_bindTo (n : Nat) (tag : Option Tag) :
    waitingFor (bindTo n tag s) = waitingFor s := by
  funext x; simp [waitingFor]
@[simp] theorem waitingFor_unbindFrom (tag : Option Tag) :
    waitingFor (unbindFrom tag s) = waitingFor s := by
  funext x; simp [waitingFor]
@[simp] theorem waitingFor_clearedOtherwise :
    waitingFor (clearedOtherwise s) = waitingFor s := by
  funext x; simp [waitingFor]
@[simp] theorem waitingFor_putHeadSlot (h : Fin 4) (x : Slot) :
    waitingFor (putHeadSlot h x s) = waitingFor s := by
  funext x; simp [waitingFor]
@[simp] theorem waitingFor_setState (n : Nat) (x : AsmState) :
    waitingFor (setState n x s) = waitingFor s := by
  funext x; simp [waitingFor]
@[simp] theorem waitingFor_grants : waitingFor (grants s) = waitingFor s := by
  funext x; simp [waitingFor]

end Sys2Proof.Machine
end

