-- ==== Sys2Proof/Laws/Ops.lean ====
section
/-! SUPPORT. One lemma per shared operation that says all it can do: the tables, the numbered stores, limiting,
notices, the scans, captures, arrivals and requests. -/

set_option Elab.async false

namespace Sys2Proof.Machine

/-! ## Tables -/

theorem tableGet_tableSet_same {α : Type} (t : Table α) (n : Nat) (a : α) :
    tableGet (tableSet t n a) n = some a := by
  induction t with
  | nil => simp [tableSet, tableGet]
  | cons e t ih =>
    obtain ⟨k, b⟩ := e
    simp only [tableSet]
    split
    · simp [tableGet]
    · split
      · simp [tableGet]
      · rename_i _ h; simp [tableGet, Ne.symm h, ih]

theorem tableGet_tableSet_other {α : Type} (t : Table α) {n m : Nat} (a : α) (h : m ≠ n) :
    tableGet (tableSet t n a) m = tableGet t m := by
  induction t with
  | nil => simp [tableSet, tableGet, h.symm]
  | cons e t ih =>
    obtain ⟨k, b⟩ := e
    simp only [tableSet]
    split
    · simp [tableGet, h.symm]
    · split
      · rename_i hk; subst hk; simp [tableGet, h.symm]
      · simp [tableGet, ih]

/-- A write of one entry, read back at any key. -/
theorem tableGet_tableSet {α : Type} (t : Table α) (n m : Nat) (a : α) :
    tableGet (tableSet t n a) m = if m = n then some a else tableGet t m := by
  split
  · rename_i h; subst h; exact tableGet_tableSet_same t m a
  · rename_i h; exact tableGet_tableSet_other t a h

/-- An erased key is absent, every other key as before. -/
theorem tableGet_tableErase {α : Type} (t : Table α) (n m : Nat) :
    tableGet (tableErase t n) m = if m = n then none else tableGet t m := by
  induction t with
  | nil => simp [tableErase, tableGet]
  | cons e t ih =>
    obtain ⟨k, b⟩ := e
    simp only [tableErase] at ih ⊢
    by_cases hk : k = n
    · subst hk
      by_cases hm : m = k
      · subst hm; simpa using ih
      · simpa [tableGet, hm, Ne.symm hm] using ih
    · by_cases hkm : k = m
      · subst hkm; simp [tableGet, hk]
      · simpa [tableGet, hk, hkm] using ih

/-- Every entry of a written table is the written one or one of before. -/
theorem mem_tableSet {α : Type} {t : Table α} {n : Nat} {a : α} {e : Nat × α} (h : e ∈ tableSet t n a) :
    e = (n, a) ∨ e ∈ t := by
  induction t with
  | nil => simpa [tableSet] using h
  | cons f t ih =>
    obtain ⟨k, b⟩ := f
    simp only [tableSet] at h
    split at h
    · simpa using h
    · split at h
      · rcases List.mem_cons.1 h with h | h
        · exact .inl h
        · exact .inr (List.mem_cons_of_mem _ h)
      · rcases List.mem_cons.1 h with h | h
        · exact .inr (by simp [h])
        · exact (ih h).imp_right (List.mem_cons_of_mem _)

/-- A write keeps the keys strictly rising. -/
theorem tableSet_sorted {α : Type} {t : Table α} (n : Nat) (a : α)
    (h : t.Pairwise fun x y => x.1 < y.1) : (tableSet t n a).Pairwise fun x y => x.1 < y.1 := by
  induction t with
  | nil => simp [tableSet]
  | cons f t ih =>
    obtain ⟨k, b⟩ := f
    obtain ⟨hk, ht⟩ := List.pairwise_cons.1 h
    simp only [tableSet]
    split
    · rename_i hn
      refine List.pairwise_cons.2 ⟨fun e he => ?_, h⟩
      rcases List.mem_cons.1 he with rfl | he
      · exact hn
      · exact lt_trans hn (hk e he)
    · split
      · rename_i hn; subst hn; exact List.pairwise_cons.2 ⟨hk, ht⟩
      · refine List.pairwise_cons.2 ⟨fun e he => ?_, ih ht⟩
        rcases mem_tableSet he with rfl | he
        · show k < n; omega
        · exact hk e he

/-- Erasing keeps the keys strictly rising. -/
theorem tableErase_sorted {α : Type} {t : Table α} (n : Nat) (h : t.Pairwise fun x y => x.1 < y.1) :
    (tableErase t n).Pairwise fun x y => x.1 < y.1 := h.filter _

/-- Erasing by value keeps the keys strictly rising. -/
theorem tableEraseValue_sorted {t : Table Nat} (v : Nat) (h : t.Pairwise fun x y => x.1 < y.1) :
    (tableEraseValue t v).Pairwise fun x y => x.1 < y.1 := h.filter _

/-- What a table answers is one of its entries. -/
theorem mem_of_tableGet {α : Type} {t : Table α} {n : Nat} {a : α} (h : tableGet t n = some a) : (n, a) ∈ t := by
  induction t with
  | nil => simp [tableGet] at h
  | cons e t ih =>
    obtain ⟨k, b⟩ := e
    simp only [tableGet] at h
    split at h
    · rename_i hk; subst hk; simp_all
    · exact List.mem_cons_of_mem _ (ih h)

/-- In a table whose keys rise strictly, each entry is what its key answers. -/
theorem tableGet_of_mem {α : Type} {t : Table α} (hs : t.Pairwise fun x y => x.1 < y.1) {e : Nat × α}
    (h : e ∈ t) : tableGet t e.1 = some e.2 := by
  induction t with
  | nil => cases h
  | cons f t ih =>
    obtain ⟨hk, ht⟩ := List.pairwise_cons.1 hs
    rcases List.mem_cons.1 h with rfl | h
    · simp [tableGet]
    · have := hk e h
      simp [tableGet, Nat.ne_of_lt this, ih ht h]

/-! ## The numbered stores -/

/-- A stored record, read back at any number. -/
theorem recordAt_putAssembly (s : State) (n m : Nat) (r : Assembly) :
    recordAt (putAssembly n r s) m = if m = n then some r else recordAt s m := tableGet_tableSet _ _ _ _

/-- A stored head, read back at any head. -/
theorem headAt_putHead (s : State) (h h' : Fin 4) (x : Head) :
    headAt (putHead h x s) h' = if h' = h then x else headAt s h' := by
  unfold headAt
  simp only [putHead_heads, Fin.getElem_fin, Vector.getElem_set, Fin.val_inj]
  split <;> split <;> simp_all

/-- A stored type, read back at any number. -/
theorem typeAt_putType (s : State) (n m : Nat) (r : TypeRecord) :
    typeAt (putType n r s) m = if m = n ∧ n < 128 then r else typeAt s m := by
  unfold typeAt
  simp only [putType_types, Vector.getElem?_setIfInBounds]
  by_cases h : n = m
  · subst h; by_cases hn : n < 128 <;> simp [hn]
  · simp [h, Ne.symm h]

/-- A stored machine definition, read back at any number. -/
theorem machineAt_putMachine (s : State) (m k : Nat) (x : MachineDef) :
    machineAt (putMachine m x s) k = if k = m ∧ 1 ≤ m ∧ m ≤ 31 then some x else machineAt s k := by
  unfold machineAt putMachine
  by_cases hm : 1 ≤ m
  · simp only [hm, if_true, Vector.getElem?_setIfInBounds]
    by_cases hk : 1 ≤ k
    · by_cases h : k = m
      · subst h
        by_cases h3 : k ≤ 31
        · simp [hk, h3, show k - 1 < 31 by omega]
        · simp [hk, h3, show ¬ k - 1 < 31 by omega]
      · simp [hk, h, show ¬ m - 1 = k - 1 by omega]
    · simp [hk, show k ≠ m by omega]
  · simp [hm]

/-! ## Limiting -/

/-- Limiting gives a value in the carried range; it is marked exactly when the value was outside, and otherwise
leaves it. -/
theorem clampLength_spec (x : Int) :
    -999999999 ≤ (clampLength x).1 ∧ (clampLength x).1 ≤ 999999999
      ∧ ((clampLength x).2 = true ↔ x < -999999999 ∨ 999999999 < x)
      ∧ ((clampLength x).2 = false → (clampLength x).1 = x) := by
  unfold clampLength Config.lengthLimit
  split
  · simp; omega
  · split
    · simp; omega
    · simp; omega

/-- An event counter stays within its two bytes. -/
theorem tally_le (n : Nat) : tally n ≤ 65535 := Nat.min_le_right _ _

/-! ## Notices -/

/-- A notice changes the notice queue and its discarded count, and nothing else. -/
theorem notify_frame (b : NoticeBody) (s : State) :
    notify b s
      = { s with notices := (notify b s).notices, discardedNotices := (notify b s).discardedNotices } := by
  unfold notify; split <;> rfl

/-- The notice queue holds at most 24. -/
theorem notify_length (b : NoticeBody) (s : State) (h : s.notices.length ≤ 24) :
    (notify b s).notices.length ≤ 24 := by
  unfold notify; split
  · simp; simp [Config.noticePlaces] at *; omega
  · exact h

/-! ## Grants -/

/-- The grants change the two arbiters and nothing else. -/
theorem grants_frame (s : State) :
    grants s = { s with cribEgress := (grants s).cribEgress, hallEgress := (grants s).hallEgress } := by
  have h1 : ∀ u : State, grantCrib u = { u with cribEgress := (grantCrib u).cribEgress } := by
    intro u; unfold grantCrib; (repeat' split) <;> rfl
  have h2 : ∀ u : State, grantHall u = { u with hallEgress := (grantHall u).hallEgress } := by
    intro u; unfold grantHall; (repeat' split) <;> rfl
  unfold grants
  rw [h2 (grantCrib s), h1 s]

/-! ## The two scans -/

/-- The record scan looks at the assembly table and the hold windows only. -/
theorem scanRecords_congr {s u : State} (ha : u.assemblies = s.assemblies) (hh : u.holds = s.holds)
    (fuel n want : Nat) : scanRecords u fuel n want = scanRecords s fuel n want := by
  have hr : ∀ m, recordAt u m = recordAt s m := fun m => by simp [recordAt, ha]
  have hi : ∀ m, isHeld u m = isHeld s m := fun m => by simp [isHeld, hh]
  induction fuel generalizing n want with
  | zero => rfl
  | succ fuel ih =>
    cases want with
    | zero => rfl
    | succ want => simp only [scanRecords, hr, hi, ih]

/-- The pocket scan looks at the issue map, the assembly table and the hold windows only. -/
theorem scanPockets_congr {s u : State} (ha : u.assemblies = s.assemblies) (hh : u.holds = s.holds)
    (hi : u.issueMap = s.issueMap) (m fuel p want : Nat) :
    scanPockets u m fuel p want = scanPockets s m fuel p want := by
  have hr : ∀ q, pocketReport u m q = pocketReport s m q := fun q => by
    simp [pocketReport, occupant, recordAt, isHeld, ha, hh, hi]
  induction fuel generalizing p want with
  | zero => rfl
  | succ fuel ih =>
    cases want with
    | zero => rfl
    | succ want => simp only [scanPockets, hr, ih]

/-- The first element of a scan, then the rest of it. -/
theorem filterMap_range_succ {α : Type} (f : Nat → Option α) (k : Nat) :
    (List.range (k + 1)).filterMap f = (f 0).toList ++ (List.range k).filterMap fun i => f (i + 1) := by
  rw [List.range_succ_eq_map, List.filterMap_cons, List.filterMap_map]
  cases f 0 <;> rfl

/-- What the record scan examines and copies: the records at the examined slots, in order with the wrap after 1023,
and it stops as soon as `want` are copied or `fuel` slots are examined (R20). -/
theorem scanRecords_spec (s : State) (fuel at_ want : Nat) (h : at_ < 1024) :
    let found := fun k : Nat => (List.range k).filterMap fun i =>
      (recordAt s ((at_ + i) % 1024)).map fun r =>
        (⟨(at_ + i) % 1024, r, isHeld s ((at_ + i) % 1024)⟩ : CopiedRecord)
    let x := scanRecords s fuel at_ want
    x.1 ≤ fuel ∧ x.2 = found x.1 ∧ (∀ k < x.1, (found k).length < want)
      ∧ ((found x.1).length = want ∨ x.1 = fuel) := by
  induction fuel generalizing at_ want with
  | zero => simp [scanRecords]
  | succ fuel ih =>
    have hm : ∀ i, ((at_ + 1) % 1024 + i) % 1024 = (at_ + (i + 1)) % 1024 := by omega
    have h0 : (at_ + 0) % 1024 = at_ := by omega
    cases want with
    | zero => simp [scanRecords]
    | succ want =>
      intro found
      have hf : ∀ k, found (k + 1) = ((recordAt s at_).map fun r => (⟨at_, r, isHeld s at_⟩ : CopiedRecord)).toList
          ++ (List.range k).filterMap fun i => (recordAt s ((at_ + (i+1)) % 1024)).map fun r =>
            (⟨(at_ + (i+1)) % 1024, r, isHeld s ((at_ + (i+1)) % 1024)⟩ : CopiedRecord) := by
        intro k; simp only [found, filterMap_range_succ, h0]
      cases hr : recordAt s at_ with
      | none =>
        obtain ⟨a, b, c, d⟩ := ih ((at_ + 1) % 1024) (want + 1) (by omega)
        simp only [hm] at b c d
        simp only [hr, Option.map_none, Option.toList_none, List.nil_append] at hf
        simp only [scanRecords, hr, hf]
        refine ⟨by omega, b, ?_, by omega⟩
        rintro (_ | k) hk
        · simp [found]
        · rw [hf]; exact c k (by omega)
      | some r =>
        obtain ⟨a, b, c, d⟩ := ih ((at_ + 1) % 1024) want (by omega)
        simp only [hm] at b c d
        simp only [hr, Option.map_some, Option.toList_some, List.singleton_append] at hf
        simp only [scanRecords, hr, hf, List.length_cons]
        refine ⟨by omega, by rw [← b], ?_, by omega⟩
        rintro (_ | k) hk
        · simp [found]
        · rw [hf, List.length_cons]; have := c k (by omega); omega

/-- What the pocket scan examines and reports (R102). -/
theorem scanPockets_spec (s : State) (m fuel p want : Nat) :
    let found := fun k : Nat => (List.range k).filterMap fun i => pocketReport s m (p + i)
    let x := scanPockets s m fuel p want
    x.1 ≤ fuel ∧ x.2 = found x.1 ∧ (∀ k < x.1, (found k).length < want)
      ∧ ((found x.1).length = want ∨ x.1 = fuel) := by
  induction fuel generalizing p want with
  | zero => simp [scanPockets]
  | succ fuel ih =>
    have hm : ∀ i, p + 1 + i = p + (i + 1) := by omega
    cases want with
    | zero => simp [scanPockets]
    | succ want =>
      intro found
      have hf : ∀ k, found (k + 1) = (pocketReport s m p).toList
          ++ (List.range k).filterMap fun i => pocketReport s m (p + (i + 1)) := by
        intro k; simp only [found, filterMap_range_succ, Nat.add_zero]
      cases hr : pocketReport s m p with
      | none =>
        obtain ⟨a, b, c, d⟩ := ih (p + 1) (want + 1)
        simp only [hm] at b c d
        simp only [hr, Option.toList_none, List.nil_append] at hf
        simp only [scanPockets, hr, hf]
        refine ⟨by omega, b, ?_, by omega⟩
        rintro (_ | k) hk
        · simp [found]
        · rw [hf]; exact c k (by omega)
      | some r =>
        obtain ⟨a, b, c, d⟩ := ih (p + 1) want
        simp only [hm] at b c d
        simp only [hr, Option.toList_some, List.singleton_append] at hf
        simp only [scanPockets, hr, hf, List.length_cons]
        refine ⟨by omega, by rw [← b], ?_, by omega⟩
        rintro (_ | k) hk
        · simp [found]
        · rw [hf, List.length_cons]; have := c k (by omega); omega

/-! ## Captures -/

/-- The largest of a history is at least each reading and is one of them. -/
theorem foldl_max_spec (rest : List Sample) (m : Int) :
    m ≤ rest.foldl (fun m y => max m y.value) m
      ∧ (∀ y ∈ rest, y.value ≤ rest.foldl (fun m y => max m y.value) m)
      ∧ (rest.foldl (fun m y => max m y.value) m = m
        ∨ ∃ y ∈ rest, rest.foldl (fun m y => max m y.value) m = y.value) := by
  induction rest generalizing m with
  | nil => simp
  | cons y rest ih =>
    obtain ⟨a, b, c⟩ := ih (max m y.value)
    simp only [List.foldl_cons, List.forall_mem_cons]
    refine ⟨by omega, ⟨by omega, b⟩, ?_⟩
    rcases c with c | ⟨z, hz, c⟩
    · rcases max_choice m y.value with e | e
      · exact .inl (c.trans e)
      · exact .inr ⟨y, by simp, c.trans e⟩
    · exact .inr ⟨z, by simp [hz], c⟩

/-- The smallest of a history is at most each reading and is one of them. -/
theorem foldl_min_spec (rest : List Sample) (m : Int) :
    rest.foldl (fun m y => min m y.value) m ≤ m
      ∧ (∀ y ∈ rest, rest.foldl (fun m y => min m y.value) m ≤ y.value)
      ∧ (rest.foldl (fun m y => min m y.value) m = m
        ∨ ∃ y ∈ rest, rest.foldl (fun m y => min m y.value) m = y.value) := by
  induction rest generalizing m with
  | nil => simp
  | cons y rest ih =>
    obtain ⟨a, b, c⟩ := ih (min m y.value)
    simp only [List.foldl_cons, List.forall_mem_cons]
    refine ⟨by omega, ⟨by omega, b⟩, ?_⟩
    rcases c with c | ⟨z, hz, c⟩
    · rcases min_choice m y.value with e | e
      · exact .inl (c.trans e)
      · exact .inr ⟨y, by simp, c.trans e⟩
    · exact .inr ⟨z, by simp [hz], c⟩

/-- The largest reading of a history minus the smallest is at most a band exactly when no two differ by more (R83). -/
theorem spanOf_le_iff (x : Sample) (rest : List Sample) (band : Int) :
    spanOf (x :: rest) ≤ band ↔ ∀ a ∈ x :: rest, ∀ b ∈ x :: rest, a.value - b.value ≤ band := by
  obtain ⟨a1, a2, a3⟩ := foldl_max_spec rest x.value
  obtain ⟨b1, b2, b3⟩ := foldl_min_spec rest x.value
  simp only [spanOf]
  constructor
  · intro h a ha b hb
    have h1 : a.value ≤ rest.foldl (fun m y => max m y.value) x.value := by
      rcases List.mem_cons.1 ha with rfl | ha
      · exact a1
      · exact a2 a ha
    have h2 : rest.foldl (fun m y => min m y.value) x.value ≤ b.value := by
      rcases List.mem_cons.1 hb with rfl | hb
      · exact b1
      · exact b2 b hb
    omega
  · intro h
    obtain ⟨a, ha, e1⟩ : ∃ a ∈ x :: rest, rest.foldl (fun m y => max m y.value) x.value = a.value :=
      a3.elim (fun e => ⟨x, by simp, e⟩) fun ⟨y, hy, e⟩ => ⟨y, by simp [hy], e⟩
    obtain ⟨b, hb, e2⟩ : ∃ b ∈ x :: rest, rest.foldl (fun m y => min m y.value) x.value = b.value :=
      b3.elim (fun e => ⟨x, by simp, e⟩) fun ⟨y, hy, e⟩ => ⟨y, by simp [hy], e⟩
    rw [e1, e2]; exact h a ha b hb

/-- The settle test with the history's span opened, for a settle depth of 1 or more (R58, R83). -/
theorem settles_iff (depth : Nat) (band : Int) (reading : Option Sample) (c : Capture) (h : 1 ≤ depth) :
    settles depth band reading c = true ↔
      reading ≠ none ∧ c.history.length = depth
        ∧ ∀ a ∈ c.history, ∀ b ∈ c.history, a.value - b.value ≤ band := by
  simp only [settles, Bool.and_eq_true, decide_eq_true_eq, Option.isSome_iff_ne_none, and_assoc]
  refine and_congr_right fun _ => and_congr_right fun hl => ?_
  cases hc : c.history with
  | nil => rw [hc] at hl; simp at hl; omega
  | cons x rest => exact spanOf_le_iff x rest band

/-- What a reading makes of a capture (R82). -/
theorem afterReading_eq (depth : Nat) (reading : Option Sample) (c : Capture) :
    afterReading depth reading c = { c with
      frames := c.frames + 1
      history := if reading = none then c.history
        else (c.history ++ reading.toList).drop ((c.history ++ reading.toList).length - depth) } := by
  cases reading <;> simp [afterReading, lastEntries]

/-- The reference monitor passes a count above 0 inside the window, limits included (R50). -/
theorem monitorPasses_iff (b : CalBank) (g : GaugeFrame) :
    monitorPasses b g = true ↔ 0 < g.reference ∧ b.refMin ≤ g.reference ∧ g.reference ≤ b.refMax := by
  simp [monitorPasses, and_assoc]

/-! ## Arrivals and requests -/

/-- While the RESET pin is asserted a frame changes nothing. -/
theorem onArrival_reset (p : Port) (effect : State → State) (s : State) (h : s.resetPin = true) :
    onArrival p effect s = s := by simp [onArrival, h]

/-- With the pin released the frame's effect is followed by the grants. -/
theorem onArrival_released (p : Port) (effect : State → State) (s : State) (h : s.resetPin = false) :
    onArrival p effect s = grants (effect (heard p s)) := by simp [onArrival, h, heard]

/-- A request at a full answer FIFO is dropped and counted. -/
theorem onRequest_full (take : State → State) (s : State) (hp : s.resetPin = false)
    (hf : 8 ≤ s.answers.length) :
    onRequest take s = grants { heard .crib s with mgmtDropped := tally s.mgmtDropped } := by
  unfold onRequest
  rw [onArrival_released _ _ _ hp]
  have : answerRoom (heard .crib s) = false := by simp [answerRoom, Config.answerPlaces, hf]
  simp [this]

/-- A request that is taken. -/
theorem onRequest_taken (take : State → State) (s : State) (h : RequestTaken s) :
    onRequest take s = grants (take (heard .crib s)) := by
  unfold onRequest
  rw [onArrival_released _ _ _ h.1]
  have : answerRoom (heard .crib s) = true := by simpa [answerRoom] using h.2
  simp [this]

/-- A request outside the protection check that is taken: its owner's state with the reply. -/
theorem openRequest_taken (code rt : Nat) (owner : State → Taken) (s : State) (h : RequestTaken s) :
    openRequest code rt owner s
      = grants (reply code rt (owner (heard .crib s)).status (owner (heard .crib s)).body
          (owner (heard .crib s)).state) := by
  unfold openRequest; rw [onRequest_taken _ _ h]

/-- A table-writing request that passes the protection check: its owner's state, the generation advanced when
stored content changed, with the reply. -/
theorem tableRequest_taken (code rt : Nat) (owner : State → Taken) (s : State) (h : WriteTaken s) :
    tableRequest code rt owner s
      = grants (reply code rt (owner (heard .crib s)).status (owner (heard .crib s)).body
          (if (owner (heard .crib s)).changed then advanceGeneration (owner (heard .crib s)).state
           else (owner (heard .crib s)).state)) := by
  unfold tableRequest; rw [onRequest_taken _ _ h.1]
  have : protectionPasses (heard .crib s) = true := by simpa [protectionPasses] using h.2
  simp [this]

/-- A taken request whose owner only replies: the reply, with the generation as it stood. -/
theorem openRequest_replied (code rt : Nat) (owner : State → Taken) (s u : State) (status : Status)
    (body : ReplyBody) (h : RequestTaken s) (ho : owner (heard .crib s) = replied u status body) :
    openRequest code rt owner s = grants (reply code rt status body u) := by
  rw [openRequest_taken _ _ _ _ h, ho]; rfl

/-- A taken table-writing request whose owner only replies, a refusal or NO_CHANGE: the reply alone. -/
theorem tableRequest_replied (code rt : Nat) (owner : State → Taken) (s u : State) (status : Status)
    (body : ReplyBody) (h : WriteTaken s) (ho : owner (heard .crib s) = replied u status body) :
    tableRequest code rt owner s = grants (reply code rt status body u) := by
  rw [tableRequest_taken _ _ _ _ h, ho]; rfl

/-- A taken table-writing request that changed stored content: the generation advances, then the reply OK. -/
theorem tableRequest_effected (code rt : Nat) (owner : State → Taken) (s u : State) (body : ReplyBody)
    (h : WriteTaken s) (ho : owner (heard .crib s) = effected u body) :
    tableRequest code rt owner s = grants (reply code rt .ok body (advanceGeneration u)) := by
  rw [tableRequest_taken _ _ _ _ h, ho]; rfl

/-- A table-writing request that fails the protection check. -/
theorem tableRequest_refused (code rt : Nat) (owner : State → Taken) (s : State) (h : RequestTaken s)
    (hp : protectionPasses s = false) :
    tableRequest code rt owner s
      = grants (reply code rt .locked .none { heard .crib s with protectionError := true }) := by
  unfold tableRequest; rw [onRequest_taken _ _ h]
  have : protectionPasses (heard .crib s) = false := by simpa [protectionPasses] using hp
  simp [this]

/-! ## The requests that bodies spell -/

/-- A whole body read is read to its end. -/
theorem readAll_some {α : Type} {get : Reader α} {bytes : List Byte} {a : α} (h : readAll get bytes = some a) :
    get bytes = some (a, []) := by
  unfold readAll at h; split at h
  · cases h; assumption
  · cases h

/-- EDIT's reader gives one of the four edits. -/
theorem getEdit_listed {rt : Nat} {bs rest : List Byte} {i : Instr} (h : getEdit rt bs = some (i, rest)) :
    listedRequest i = true := by
  unfold getEdit at h
  simp only [Option.bind_eq_bind, Option.bind_eq_some_iff] at h
  obtain ⟨⟨number, b⟩, -, ⟨action, c⟩, -, h⟩ := h
  split at h <;>
    simp only [Option.bind_eq_some_iff, Option.some.injEq, Prod.mk.injEq, Prod.exists,
      reduceCtorEq] at h
  · obtain ⟨_, _, -, rfl, -⟩ := h; rfl
  · obtain ⟨_, _, -, rfl, -⟩ := h; rfl
  · obtain ⟨rfl, -⟩ := h; rfl
  · obtain ⟨rfl, -⟩ := h; rfl

/-- Each code's reader gives a request of section 10.1. -/
theorem requestReader_listed {code rt : Nat} {get : Reader Instr} {bs rest : List Byte} {i : Instr}
    (hg : requestReader code rt = some get) (h : get bs = some (i, rest)) : listedRequest i = true := by
  unfold requestReader at hg
  split at hg <;> cases hg
  all_goals first
    | exact getEdit_listed h
    | (simp only [getNothing, getOne, getTwo, getNumber, Option.bind_eq_bind, Option.bind_eq_some_iff,
        Option.some.injEq, Prod.mk.injEq, Prod.exists] at h
       first
        | (obtain ⟨rfl, -⟩ := h; rfl)
        | (obtain ⟨_, _, -, rfl, -⟩ := h; rfl)
        | (obtain ⟨_, _, -, _, _, -, rfl, -⟩ := h; rfl)
        | (obtain ⟨_, _, -, _, _, -, _, _, -, rfl, -⟩ := h; rfl))

/-- What a code and a body spell is a request of section 10.1. -/
theorem decodeRequest_listed {code rt : Nat} {body : List Byte} {i : Instr}
    (h : decodeRequest code rt body = some i) : listedRequest i = true := by
  obtain ⟨get, hg, h⟩ := Option.bind_eq_some_iff.mp h
  exact requestReader_listed hg (readAll_some h)

/-! ## Reception -/

/-- A start delimiter begins a reception with all that follows it. -/
theorem receivedOn_delimiter (x : PortState) (bytes : List Byte) (h : x.receiving = []) :
    receivedOn x (startDelimiter :: bytes) = startDelimiter :: bytes := by simp [receivedOn, h]

/-- Bytes without a start delimiter begin none. -/
theorem receivedOn_noise (x : PortState) (bytes : List Byte) (h : x.receiving = [])
    (hb : startDelimiter ∉ bytes) : receivedOn x bytes = [] := by
  simp only [receivedOn, h, if_true, List.dropWhile_eq_nil_iff]
  intro b hm
  simpa using fun e : b = startDelimiter => hb (e ▸ hm)

/-- A reception in progress takes every byte. -/
theorem receivedOn_started (x : PortState) (bytes : List Byte) (h : x.receiving ≠ []) :
    receivedOn x bytes = x.receiving ++ bytes := by simp [receivedOn, h]

/-- How a transmission is cut into pieces does not change what is received. -/
theorem receivedOn_pieces (x : PortState) (first last : List Byte) :
    receivedOn { x with receiving := receivedOn x first } last = receivedOn x (first ++ last) := by
  by_cases h : x.receiving = []
  · simp only [receivedOn, h, if_true, List.dropWhile_append]
    by_cases hd : List.dropWhile (fun b => decide (b ≠ startDelimiter)) first = [] <;> simp
  · simp [receivedOn, h]

/-- A piece that does not end its frame is kept, and nothing else changes. -/
theorem execFrameArrival_kept (p : Port) (bytes : List Byte) (s : State) (hp : s.resetPin = false) :
    execFrameArrival p ⟨bytes, false⟩ s
      = .next (putPort p { portAt s p with receiving := receivedOn (portAt s p) bytes } s) := by
  unfold execFrameArrival
  simp only [hp, Bool.false_eq_true, if_false]
  split
  · rename_i h
    have hr : (portAt s p).receiving = [] := by
      by_contra hn
      simp [receivedOn, hn] at h
    have : ({ portAt s p with receiving := receivedOn (portAt s p) bytes } : PortState) = portAt s p := by
      rw [h, ← hr]
    rw [this]
    cases p <;> rfl
  · simp_all
  · simp_all

/-- The piece that ends a frame begun with a start delimiter makes it arrive. -/
theorem execFrameArrival_ended (p : Port) (bytes : List Byte) (s : State) (hp : s.resetPin = false)
    (h : receivedOn (portAt s p) bytes ≠ []) :
    execFrameArrival p ⟨bytes, true⟩ s = arrive p (receivedOn (portAt s p) bytes) s := by
  unfold execFrameArrival
  simp only [hp, Bool.false_eq_true, if_false]

end Sys2Proof.Machine
end

