-- ==== Sys2Proof/Laws/PerInstr.lean ====
section
/-! SUPPORT. A statement for every command, as syntax: the frame that carries a well-formed command has a length
that the line allows, 7 to 247 bytes (section 9.2). -/

set_option Elab.async false

open Sys2Proof Sys2Proof.Machine

namespace Sys2Proof.Laws

/-! ## Lengths of the encodings of R159 -/

@[simp] theorem putU8_length (n : Nat) : (putU8 n).length = 1 := rfl
@[simp] theorem putU16_length (n : Nat) : (putU16 n).length = 2 := rfl
@[simp] theorem putI32_length (x : Int) : (putI32 x).length = 4 := rfl
@[simp] theorem putTag_length (t : Tag) : (putTag t).length = 8 := rfl
@[simp] theorem putBool_length (b : Bool) : (putBool b).length = 1 := rfl
@[simp] theorem putEntryBody_length (b : EntryBody) : (putEntryBody b).length = 8 := by simp [putEntryBody]
@[simp] theorem putPlace_length (p : Place) : (putPlace p).length = 2 := by simp [putPlace]
@[simp] theorem putTypeBody_length (b : TypeBody) : (putTypeBody b).length = 42 := by simp [putTypeBody]
@[simp] theorem putMachineBody_length (b : MachineBody) : (putMachineBody b).length = 3 := by simp [putMachineBody]
@[simp] theorem putHoldBody_length (b : HoldBody) : (putHoldBody b).length = 5 := by simp [putHoldBody]
@[simp] theorem putUsage_length (u : UsageReport) : (putUsage u).length = 14 := by simp [putUsage]
@[simp] theorem putGauge_length (k : SampleKind) (g : GaugeFrame) : (putGauge k g).length = 13 := by
  simp [putGauge]

/-- An optional field takes the same room present or absent. -/
theorem putOption_length {α : Type} (size : Nat) (put : α → List Byte) (h : ∀ a, (put a).length = size)
    (x : Option α) : (putOption size put x).length = size + 1 := by
  cases x <;> simp [putOption, h] <;> omega

/-- A list takes its count byte and its entries. -/
theorem putList_length {α : Type} (size : Nat) (put : α → List Byte) (h : ∀ a, (put a).length = size)
    (xs : List α) : (putList put xs).length = xs.length * size + 1 := by
  have : ((xs.map put).flatten).length = xs.length * size := by
    induction xs with
    | nil => simp
    | cons a xs ih => simp only [List.map_cons, List.flatten_cons, List.length_append, h, ih, List.length_cons]; ring
  simp [putList, this]; omega

@[simp] theorem putOption_putTag_length (t : Option Tag) : (putOption 8 putTag t).length = 9 :=
  putOption_length 8 putTag (by simp) t

@[simp] theorem putRestoreBody_length (b : RestoreBody) : (putRestoreBody b).length = 45 := by
  simp [putRestoreBody, putOption_length 8 putEntryBody (by simp),
    putOption_length 1 putU8 (by simp), putOption_length 2 putPlace (by simp)]

@[simp] theorem putCalBody_length (b : CalBody) : (putCalBody b).length = 8 * b.breakpoints.length + 17 := by
  simp [putCalBody, putList_length 8 putBreakpoint (by simp [putBreakpoint])]; omega

@[simp] theorem putProfileBody_length (b : ProfileBody) :
    (putProfileBody b).length = 5 * b.slots.length + 6 := by
  simp [putProfileBody, putList_length 5 putSlotBody (by simp [putSlotBody])]; omega

/-- The frame of section 9.2 is seven bytes longer than its payload. -/
@[simp] theorem buildFrame_length (dstSeg : Port) (dst : Nat) (srcSeg : Port) (src kind : Nat)
    (payload : List Byte) : (buildFrame dstSeg dst srcSeg src kind payload).length = payload.length + 7 := by
  simp [buildFrame, checkField]; omega

/-! ## One lemma for each command -/

/-- A frame that carries the command has 7 to 247 bytes. -/
def FrameFits.Statement (i : Instr) : Prop :=
  i.wellFormed = true → ∀ port bytes, encodeFrame i = some (port, bytes) → 7 ≤ bytes.length ∧ bytes.length ≤ 247


theorem FrameFits.powerOnReset : FrameFits.Statement .powerOnReset := by
  intro _ p f h
  simp [encodeFrame, encodeRequest] at h

theorem FrameFits.pinReset : FrameFits.Statement .pinReset := by
  intro _ p f h
  simp [encodeFrame, encodeRequest] at h

theorem FrameFits.frameArrival : ∀ port bytes, FrameFits.Statement (.frameArrival port bytes) := by
  intro port bytes _ p f h
  simp [encodeFrame, encodeRequest] at h

theorem FrameFits.contact : ∀ head g tag, FrameFits.Statement (.contact head g tag) := by
  intro head g tag _ p f h
  simp [encodeFrame] at h
  obtain ⟨-, rfl⟩ := h
  simp

theorem FrameFits.sample : ∀ head g, FrameFits.Statement (.sample head g) := by
  intro head g _ p f h
  simp [encodeFrame] at h
  obtain ⟨-, rfl⟩ := h
  simp

theorem FrameFits.release : ∀ head g, FrameFits.Statement (.release head g) := by
  intro head g _ p f h
  simp [encodeFrame] at h
  obtain ⟨-, rfl⟩ := h
  simp

theorem FrameFits.issue : ∀ counter tag machine pocket, FrameFits.Statement (.issue counter tag machine pocket) := by
  intro counter tag machine pocket _ p f h
  simp [encodeFrame] at h
  obtain ⟨-, rfl⟩ := h
  simp

theorem FrameFits.returnHolder : ∀ counter tag, FrameFits.Statement (.returnHolder counter tag) := by
  intro counter tag _ p f h
  simp [encodeFrame] at h
  obtain ⟨-, rfl⟩ := h
  simp

theorem FrameFits.dataRequest : ∀ machine pocket, FrameFits.Statement (.dataRequest machine pocket) := by
  intro machine pocket _ p f h
  simp [encodeFrame] at h
  obtain ⟨-, rfl⟩ := h
  simp

theorem FrameFits.usage : ∀ machine report, FrameFits.Statement (.usage machine report) := by
  intro machine report _ p f h
  simp [encodeFrame] at h
  obtain ⟨-, rfl⟩ := h
  simp

theorem FrameFits.general : ∀ port dst src payload, FrameFits.Statement (.general port dst src payload) := by
  intro port dst src payload w p f h
  simp [Instr.wellFormed] at w
  simp [encodeFrame] at h
  obtain ⟨-, rfl⟩ := h
  simp; omega

theorem FrameFits.toolData : ∀ machine src payload, FrameFits.Statement (.toolData machine src payload) := by
  intro machine src payload w p f h
  simp [Instr.wellFormed] at w
  simp [encodeFrame] at h
  obtain ⟨-, rfl⟩ := h
  simp; omega

theorem FrameFits.transmissionCompletion : ∀ port, FrameFits.Statement (.transmissionCompletion port) := by
  intro port _ p f h
  simp [encodeFrame, encodeRequest] at h

theorem FrameFits.handoffTake : FrameFits.Statement .handoffTake := by
  intro _ p f h
  simp [encodeFrame, encodeRequest] at h

theorem FrameFits.sweepStep : FrameFits.Statement .sweepStep := by
  intro _ p f h
  simp [encodeFrame, encodeRequest] at h

theorem FrameFits.sweepEnd : FrameFits.Statement .sweepEnd := by
  intro _ p f h
  simp [encodeFrame, encodeRequest] at h

theorem FrameFits.settleTimeout : ∀ head g, FrameFits.Statement (.settleTimeout head g) := by
  intro head g _ p f h
  simp [encodeFrame, encodeRequest] at h

theorem FrameFits.atCaptureEnd : ∀ head kind g tag, FrameFits.Statement (.atCaptureEnd head kind g tag) := by
  intro head kind g tag _ p f h
  simp [encodeFrame, encodeRequest] at h

theorem FrameFits.atDrain : ∀ machine, FrameFits.Statement (.atDrain machine) := by
  intro machine _ p f h
  simp [encodeFrame, encodeRequest] at h

theorem FrameFits.identify : ∀ rt, FrameFits.Statement (.identify rt) := by
  intro rt _ p f h
  simp [encodeFrame, encodeRequest] at h
  obtain ⟨-, rfl⟩ := h
  simp

theorem FrameFits.readStatus : ∀ rt, FrameFits.Statement (.readStatus rt) := by
  intro rt _ p f h
  simp [encodeFrame, encodeRequest] at h
  obtain ⟨-, rfl⟩ := h
  simp

theorem FrameFits.clearStatus : ∀ rt, FrameFits.Statement (.clearStatus rt) := by
  intro rt _ p f h
  simp [encodeFrame, encodeRequest] at h
  obtain ⟨-, rfl⟩ := h
  simp

theorem FrameFits.readCounters : ∀ rt, FrameFits.Statement (.readCounters rt) := by
  intro rt _ p f h
  simp [encodeFrame, encodeRequest] at h
  obtain ⟨-, rfl⟩ := h
  simp

theorem FrameFits.clearCounters : ∀ rt, FrameFits.Statement (.clearCounters rt) := by
  intro rt _ p f h
  simp [encodeFrame, encodeRequest] at h
  obtain ⟨-, rfl⟩ := h
  simp

theorem FrameFits.writeType : ∀ rt type body, FrameFits.Statement (.writeType rt type body) := by
  intro rt type body _ p f h
  simp [encodeFrame, encodeRequest] at h
  obtain ⟨-, rfl⟩ := h
  simp

theorem FrameFits.readType : ∀ rt type, FrameFits.Statement (.readType rt type) := by
  intro rt type _ p f h
  simp [encodeFrame, encodeRequest] at h
  obtain ⟨-, rfl⟩ := h
  simp

theorem FrameFits.writeCal : ∀ rt head bank body, FrameFits.Statement (.writeCal rt head bank body) := by
  intro rt head bank body w p f h
  simp [Instr.wellFormed, CalBody.wellFormed] at w
  simp [encodeFrame, encodeRequest] at h
  obtain ⟨-, rfl⟩ := h
  simp; omega

theorem FrameFits.readCal : ∀ rt head bank, FrameFits.Statement (.readCal rt head bank) := by
  intro rt head bank _ p f h
  simp [encodeFrame, encodeRequest] at h
  obtain ⟨-, rfl⟩ := h
  simp

theorem FrameFits.switchCal : ∀ rt head bank, FrameFits.Statement (.switchCal rt head bank) := by
  intro rt head bank _ p f h
  simp [encodeFrame, encodeRequest] at h
  obtain ⟨-, rfl⟩ := h
  simp

theorem FrameFits.cancelCalSwitch : ∀ rt head, FrameFits.Statement (.cancelCalSwitch rt head) := by
  intro rt head _ p f h
  simp [encodeFrame, encodeRequest] at h
  obtain ⟨-, rfl⟩ := h
  simp

theorem FrameFits.headRestore : ∀ rt head, FrameFits.Statement (.headRestore rt head) := by
  intro rt head _ p f h
  simp [encodeFrame, encodeRequest] at h
  obtain ⟨-, rfl⟩ := h
  simp

theorem FrameFits.defineMachine : ∀ rt machine body, FrameFits.Statement (.defineMachine rt machine body) := by
  intro rt machine body _ p f h
  simp [encodeFrame, encodeRequest] at h
  obtain ⟨-, rfl⟩ := h
  simp

theorem FrameFits.writeProfile : ∀ rt machine bank body, FrameFits.Statement (.writeProfile rt machine bank body) := by
  intro rt machine bank body w p f h
  simp [Instr.wellFormed, ProfileBody.wellFormed] at w
  simp [encodeFrame, encodeRequest] at h
  obtain ⟨-, rfl⟩ := h
  simp; omega

theorem FrameFits.readProfile : ∀ rt machine bank, FrameFits.Statement (.readProfile rt machine bank) := by
  intro rt machine bank _ p f h
  simp [encodeFrame, encodeRequest] at h
  obtain ⟨-, rfl⟩ := h
  simp

theorem FrameFits.switchProfile : ∀ rt machine bank, FrameFits.Statement (.switchProfile rt machine bank) := by
  intro rt machine bank _ p f h
  simp [encodeFrame, encodeRequest] at h
  obtain ⟨-, rfl⟩ := h
  simp

theorem FrameFits.cancelProfileSwitch : ∀ rt machine, FrameFits.Statement (.cancelProfileSwitch rt machine) := by
  intro rt machine _ p f h
  simp [encodeFrame, encodeRequest] at h
  obtain ⟨-, rfl⟩ := h
  simp

theorem FrameFits.pauseHandoff : ∀ rt machine, FrameFits.Statement (.pauseHandoff rt machine) := by
  intro rt machine _ p f h
  simp [encodeFrame, encodeRequest] at h
  obtain ⟨-, rfl⟩ := h
  simp

theorem FrameFits.resumeHandoff : ∀ rt machine, FrameFits.Statement (.resumeHandoff rt machine) := by
  intro rt machine _ p f h
  simp [encodeFrame, encodeRequest] at h
  obtain ⟨-, rfl⟩ := h
  simp

theorem FrameFits.readPockets : ∀ rt machine first count, FrameFits.Statement (.readPockets rt machine first count) := by
  intro rt machine first count _ p f h
  simp [encodeFrame, encodeRequest] at h
  obtain ⟨-, rfl⟩ := h
  simp

theorem FrameFits.create : ∀ rt number type tag, FrameFits.Statement (.create rt number type tag) := by
  intro rt number type tag _ p f h
  simp [encodeFrame, encodeRequest] at h
  obtain ⟨-, rfl⟩ := h
  simp

theorem FrameFits.restore : ∀ rt number body, FrameFits.Statement (.restore rt number body) := by
  intro rt number body _ p f h
  simp [encodeFrame, encodeRequest] at h
  obtain ⟨-, rfl⟩ := h
  simp

theorem FrameFits.changeType : ∀ rt number type, FrameFits.Statement (.changeType rt number type) := by
  intro rt number type _ p f h
  simp [encodeFrame, encodeRequest] at h
  obtain ⟨-, rfl⟩ := h
  simp

theorem FrameFits.bindTag : ∀ rt number tag, FrameFits.Statement (.bindTag rt number tag) := by
  intro rt number tag _ p f h
  simp [encodeFrame, encodeRequest] at h
  obtain ⟨-, rfl⟩ := h
  simp

theorem FrameFits.unbindTag : ∀ rt number, FrameFits.Statement (.unbindTag rt number) := by
  intro rt number _ p f h
  simp [encodeFrame, encodeRequest] at h
  obtain ⟨-, rfl⟩ := h
  simp

theorem FrameFits.rebuild : ∀ rt number, FrameFits.Statement (.rebuild rt number) := by
  intro rt number _ p f h
  simp [encodeFrame, encodeRequest] at h
  obtain ⟨-, rfl⟩ := h
  simp

theorem FrameFits.delete : ∀ rt number, FrameFits.Statement (.delete rt number) := by
  intro rt number _ p f h
  simp [encodeFrame, encodeRequest] at h
  obtain ⟨-, rfl⟩ := h
  simp

theorem FrameFits.readAssemblies : ∀ rt start count, FrameFits.Statement (.readAssemblies rt start count) := by
  intro rt start count _ p f h
  simp [encodeFrame, encodeRequest] at h
  obtain ⟨-, rfl⟩ := h
  simp

theorem FrameFits.forceReturn : ∀ rt number, FrameFits.Statement (.forceReturn rt number) := by
  intro rt number _ p f h
  simp [encodeFrame, encodeRequest] at h
  obtain ⟨-, rfl⟩ := h
  simp

theorem FrameFits.writeHolds : ∀ rt window body, FrameFits.Statement (.writeHolds rt window body) := by
  intro rt window body _ p f h
  simp [encodeFrame, encodeRequest] at h
  obtain ⟨-, rfl⟩ := h
  simp

theorem FrameFits.seedAudit : ∀ rt value, FrameFits.Statement (.seedAudit rt value) := by
  intro rt value _ p f h
  simp [encodeFrame, encodeRequest] at h
  obtain ⟨-, rfl⟩ := h
  simp

theorem FrameFits.sweepSuspend : ∀ rt, FrameFits.Statement (.sweepSuspend rt) := by
  intro rt _ p f h
  simp [encodeFrame, encodeRequest] at h
  obtain ⟨-, rfl⟩ := h
  simp

theorem FrameFits.sweepResume : ∀ rt, FrameFits.Statement (.sweepResume rt) := by
  intro rt _ p f h
  simp [encodeFrame, encodeRequest] at h
  obtain ⟨-, rfl⟩ := h
  simp

theorem FrameFits.setProtection : ∀ rt mode, FrameFits.Statement (.setProtection rt mode) := by
  intro rt mode _ p f h
  simp [encodeFrame, encodeRequest] at h
  obtain ⟨-, rfl⟩ := h
  simp

theorem FrameFits.lineReset : ∀ rt, FrameFits.Statement (.lineReset rt) := by
  intro rt _ p f h
  simp [encodeFrame, encodeRequest] at h
  obtain ⟨-, rfl⟩ := h
  simp

theorem FrameFits.unknownRequest : ∀ code rt body, FrameFits.Statement (.unknownRequest code rt body) := by
  intro code rt body w p f h
  simp [Instr.wellFormed] at w
  simp [encodeFrame, encodeRequest] at h
  obtain ⟨-, rfl⟩ := h
  simp; omega

theorem FrameFits.resetPinRelease : FrameFits.Statement .resetPinRelease := by
  intro _ p f h
  simp [encodeFrame, encodeRequest] at h

theorem FrameFits.keyLineChange : ∀ asserted, FrameFits.Statement (.keyLineChange asserted) := by
  intro asserted _ p f h
  simp [encodeFrame, encodeRequest] at h

end Sys2Proof.Laws
end

