-- ==== Sys2Proof/Tests/Slice0.lean ====
section
/-! SUPPORT. The model's own tests: ill-formed commands are refused; the worked cases of the spec come out as the
spec prints them; and for every statement with hypotheses one state that meets them. -/

namespace Sys2Proof.Tests

open Sys2Proof Sys2Proof.Machine

set_option Elab.async false

/-! ## A small part to test on -/

/-- Bank A of the worked case in section 4.6. -/
def bank46 : CalBank :=
  { breakpoints := [⟨65536, -5000⟩, ⟨98304, 5000⟩], scaleNum := 1, scaleDen := 2, zero := 250000, alpha := 11
    refMin := 39980, refMax := 40020, depth := 4 }

/-- The CONTACT frame of the worked case in section 4.6, with another scale count. -/
def gauge (scale : Int) : GaugeFrame :=
  { axis := 0, gating := 0, overflow := false, scale := scale, sensor := 51250, reference := 40000
    temperature := 96 }

/-- A gauge frame whose reference count lies below the window of `bank46`. -/
def lowGauge : GaugeFrame := { gauge 0 with reference := 38512 }

/-- Type 45 of sections 4.6 and 6.7. -/
def type45 : TypeRecord :=
  { TypeRecord.reset with
    defined := true, nominalL := 852000, lowerL := -500, upperL := 500, band := 20, lifeLimit := 240
    auditThreshold := 3000 }

/-- An assembly of type 45 with the length of section 4.6. -/
def tool (state : AsmState) (tag : Option Tag) : Assembly :=
  { type := 45, tag := tag, state := state, length := some ⟨852243, true, false, 1, .bankA⟩, radius := none
    lifeUsed := 0, lengthWear := 0, radiusWear := 0, location := none, marked := false, recheck := false
    reason := none }

/-- A READY head on `bank46`. -/
def readyHead : Head := { Head.reset with status := .ready, bankA := bank46, bankB := bank46 }

/-- The capture of section 4.6 after three readings. -/
def capture46 : Capture :=
  { assembly := 310, axis := .length, prior := .preset, bank := .bankA
    history := [⟨852243, false⟩, ⟨852245, false⟩, ⟨852240, false⟩], frames := 3 }

/-- The active profile of machine 12 in section 8.8. -/
def profile88 : Profile :=
  { slots := [⟨0, 3, 6, false, false⟩, ⟨6, 0, 3, false, false⟩, ⟨9, 0, 3, false, false⟩], offset := 1500 }

/-- Machine 12 of section 6.7. -/
def machine12 : MachineDef :=
  { MachineDef.reset with defined := true, magazine := 40, push := true, bankA := profile88, bankB := profile88 }

/-- A SERVED frame for assembly 312 at (12, 17). -/
def served312 : HandoffFrame := ⟨12, 17, .served 312 .bankA [], false⟩

/-- The part in the midst of its work: head 0 READY and IDLE, head 1 ARMED on assembly 310, head 2 in FAULT, head
3 UNCALIBRATED; 311 PRESET and marked, 312 ISSUED at (12, 17), 313 WITHDRAWN at (12, 18), 314 RETIRED; one SERVED
frame in transmission; the sweep RUNNING. -/
def bench : State :=
  { State.reset with
    types := State.reset.types.set 45 { type45 with inUse := 5 }
    heads := ((State.reset.heads.set 0 readyHead).set 1 { readyHead with slot := .armed capture46 }).set 2
      { readyHead with status := .fault ⟨38512, .sample, .bankA⟩ }
    machines := State.reset.machines.set 11 machine12
    assemblies :=
      [(310, tool .measuring (some 0xA0)), (311, { tool .preset (some 0xA1) with marked := true }),
        (312, { tool .issued (some 0xA2) with location := some ⟨12, 17⟩ }),
        (313, { tool .withdrawn (some 0xA3) with location := some ⟨12, 18⟩, reason := some .life }),
        (314, tool .retired none)]
    tagMap := [(0xA0, 310), (0xA1, 311), (0xA2, 312), (0xA3, 313)]
    issueMap := [(3089, 312), (3090, 313)]
    sweep := { Sweep.reset with state := .running, marks := 1 }
    waitList := [⟨12, 18, false⟩]
    handoff := [served312]
    hallEgress := { sending := some (.handoff, handoffFrame served312), pointer := .transit } }

/-- A state with another head. -/
def benchWith (h : Fin 4) (x : Head) : State := { bench with heads := bench.heads.set h x }

/-- Head 1 with a pending switch to bank B. -/
def held : State := benchWith 1 { readyHead with slot := .armed capture46, pendingCal := some .bankB }

/-- Head 1 one reading before its 64th. -/
def late : State :=
  benchWith 1 { readyHead with slot := .armed { capture46 with history := [], frames := 63 } }

/-- Head 1 with a pending switch, one reading before its 64th. -/
def lateHeld : State :=
  benchWith 1
    { readyHead with slot := .armed { capture46 with history := [], frames := 63 }, pendingCal := some .bankB }

/-- The state after an outcome; the reset state for a fault or a refusal. -/
def after (r : Result) : State :=
  match r with
  | .next s => s
  | .fault _ | .refused _ => State.reset

/-- The newest answer. -/
def lastAnswer (s : State) : Option Answer := s.answers.getLast?

/-- The status and fields of a request's reply. -/
def replyOf (i : Instr) (s : State) : Option (Status × ReplyBody) :=
  match lastAnswer (after (exec i s)) with
  | some (.reply _ _ status _ body) => some (status, body)
  | _ => none

/-- The kinds of body in the notice queue, oldest first. -/
def noticeBodies (s : State) : List NoticeBody := s.notices.map (·.body)

/-! ## WellFormed refuses what no frame can carry -/

theorem test_illformed_axis : (Instr.sample 0 { gauge 0 with axis := 256 }).wellFormed = false := by decide +kernel
theorem test_illformed_scale : (Instr.contact 0 (gauge 2147483648) 0).wellFormed = false := by decide +kernel
theorem test_illformed_sensor : (Instr.release 0 { gauge 0 with sensor := 65536 }).wellFormed = false := by decide +kernel
theorem test_illformed_issue : (Instr.issue 0 0 12 256).wellFormed = false := by decide +kernel
theorem test_illformed_data_request : (Instr.dataRequest 32 1).wellFormed = false := by decide +kernel
theorem test_illformed_usage : (Instr.usage 1 ⟨1, 65536, 0, 0, 0, false⟩).wellFormed = false := by decide +kernel
theorem test_illformed_general : (Instr.general .crib 0 1 []).wellFormed = false := by decide +kernel
theorem test_illformed_tool_data : (Instr.toolData 1 32 []).wellFormed = false := by decide +kernel
theorem test_illformed_at_drain : (Instr.atDrain 0).wellFormed = false := by decide +kernel
theorem test_illformed_arrival : (Instr.frameArrival .crib ⟨[], false⟩).wellFormed = false := by decide +kernel
theorem test_illformed_tag : (Instr.identify 256).wellFormed = false := by decide +kernel
theorem test_illformed_type_body :
    (Instr.writeType 0 0 ⟨256, 0, 0, 0, 0, 0, 0, 0, 1, 0, 0, 0, 0⟩).wellFormed = false := by decide +kernel
theorem test_illformed_cal_body :
    (Instr.writeCal 0 0 0 ⟨28, List.replicate 28 ⟨0, 0⟩, 0, 0, 0, 0, 0, 0, 0⟩).wellFormed = false := by decide +kernel
theorem test_illformed_profile_body :
    (Instr.writeProfile 0 0 0 ⟨0, [⟨256, 0, 0, 0, 0⟩], 0⟩).wellFormed = false := by decide +kernel
theorem test_illformed_machine_body : (Instr.defineMachine 0 1 ⟨1, 256, 0⟩).wellFormed = false := by decide +kernel
theorem test_illformed_restore_body :
    (Instr.restore 0 0 ⟨0, none, some ⟨0, 256, 0, 0, 0⟩, none, 0, 0, 0, 0, none, 0, none⟩).wellFormed = false := by
  decide +kernel
theorem test_illformed_restore_place :
    (Instr.restore 0 0 ⟨0, none, none, none, 0, 0, 0, 0, none, 0, some ⟨256, 0⟩⟩).wellFormed = false := by decide +kernel
theorem test_illformed_hold_body : (Instr.writeHolds 0 0 ⟨0, 65536, 0, 0⟩).wellFormed = false := by decide +kernel
theorem test_illformed_number : (Instr.delete 0 65536).wellFormed = false := by decide +kernel
theorem test_illformed_unknown_is_identify : (Instr.unknownRequest 0x01 0 []).wellFormed = false := by decide +kernel

/-! ## The line (sections 9.2 to 9.4) -/

/-- The check over 31h to 39h is 29B1h (R158). -/
theorem test_check_of_digits : checkOf [0x31, 0x32, 0x33, 0x34, 0x35, 0x36, 0x37, 0x38, 0x39] = 0x29B1 := by
  decide +kernel

/-- IDENTIFY with request tag 7 from node 1: header 00h 01h, kind 04h, length 2, payload 01h 07h (section 9.2,
section 10.1). -/
theorem test_decode_identify :
    arrivalOf (fun _ => false) .crib
      ([0xA5, 0x00, 0x01, 0x04, 0x02, 0x01, 0x07] ++ checkField [0x00, 0x01, 0x04, 0x02, 0x01, 0x07])
      = .command (.identify 7) := by decide +kernel

/-- A RETURN of tag A1h at counter 2, node 8 (section 9.3, TAG). -/
theorem test_decode_return :
    arrivalOf (fun _ => false) .crib
      ([0xA5, 0x00, 0x08, 0x02, 0x09, 0x02, 0, 0, 0, 0, 0, 0, 0, 0xA1]
        ++ checkField [0x00, 0x08, 0x02, 0x09, 0x02, 0, 0, 0, 0, 0, 0, 0, 0xA1])
      = .command (.returnHolder 2 0xA1) := by decide +kernel

/-- A SAMPLE at head 1, node 3: S 1,203,313 is 00125C71h, Cs 51,250 is C832h, Cr 40,000 is 9C40h, T 96 is 60h; bits
7 to 1 of the mark byte are not read (section 9.3, GAUGE). -/
theorem test_decode_sample :
    arrivalOf (fun _ => false) .crib
      ([0xA5, 0x00, 0x03, 0x01, 0x0D, 0x01, 0x00, 0x00, 0xFE, 0x00, 0x12, 0x5C, 0x71, 0xC8, 0x32, 0x9C, 0x40, 0x60]
        ++ checkField
          [0x00, 0x03, 0x01, 0x0D, 0x01, 0x00, 0x00, 0xFE, 0x00, 0x12, 0x5C, 0x71, 0xC8, 0x32, 0x9C, 0x40, 0x60])
      = .command (.sample 1 (gauge 1203313)) := by decide +kernel

/-- A DATA_REQUEST of machine 12, pocket 17: header 80h 8Ch (section 9.3); refused while 12 is undefined (R163). -/
theorem test_decode_data_request :
    let frame := [0xA5, 0x80, 0x8C, 0x07, 0x01, 0x11] ++ checkField [0x80, 0x8C, 0x07, 0x01, 0x11]
    arrivalOf (fun m => m = 12) .hall frame = .command (.dataRequest 12 17)
      ∧ arrivalOf (fun _ => false) .hall frame = .counted .sourceRefused := by decide +kernel

/-- BIND_TAG of assembly 310 (0136h) with tag 2: EDIT 42h, action 2 (R16, section 9.3). -/
theorem test_decode_bind_tag :
    decodeRequest 0x42 9 [0x01, 0x36, 0x02, 0, 0, 0, 0, 0, 0, 0, 2] = some (.bindTag 9 310 2) := by decide +kernel

/-- A WRITE_HOLDS body: window 1, enabled, base 300, exponent 6, no complement (section 1.6, R159); one byte more is
no form of it (R176). -/
theorem test_decode_write_holds :
    decodeRequest 0x50 0 [1, 1, 0x01, 0x2C, 6, 0] = some (.writeHolds 0 1 ⟨1, 300, 6, 0⟩)
      ∧ decodeRequest 0x50 0 [1, 1, 0x01, 0x2C, 6, 0, 0] = none := by decide +kernel

/-- Traffic local to the hall is ignored; a hall USAGE for the crib is of a refused kind (R162). -/
theorem test_arrival_classes :
    arrivalOf (fun _ => true) .hall (buildFrame .hall 3 .hall 12 0x08 []) = .ignored
      ∧ arrivalOf (fun _ => true) .hall (buildFrame .crib 3 .hall 12 0x09 []) = .counted .kindRefused := by
  decide +kernel

/-- A frame whose source names the other segment is malformed (R161). -/
theorem test_arrival_source_segment :
    arrivalOf (fun _ => true) .crib (buildFrame .crib 0 .hall 1 0x04 [1, 0]) = .counted .malformed := by
  decide +kernel

/-- An IDENTIFY frame in two pieces, the first after two bytes of noise (R165): the first piece is kept, the second
runs the request; LINE_RESET in between keeps the bytes of the other port. -/
theorem test_frame_in_pieces :
    let frame := buildFrame .crib 0 .crib 1 0x04 [1, 7]
    let first := after (exec (.frameArrival .crib ⟨[0, 0xFF] ++ frame.take 5, false⟩) State.reset)
    let done := after (exec (.frameArrival .crib ⟨frame.drop 5, true⟩) first)
    let hall := after (exec (.frameArrival .hall ⟨[0xA5, 0x80], false⟩) State.reset)
    first.crib.receiving = frame.take 5 ∧ first.answers = [] ∧ done.crib.receiving = []
      ∧ done.answers = [.reply 0x01 7 .ok 0 .identity]
      ∧ (after (exec (.lineReset 1) hall)).hall.receiving = [0xA5, 0x80] := by decide +kernel

/-- The two resets of the part discard a partial frame (R165); noise and an end without bytes change nothing. -/
theorem test_partial_frame_is_discarded :
    let s := after (exec (.frameArrival .hall ⟨[0xA5, 0x80], false⟩) State.reset)
    s.hall.receiving = [0xA5, 0x80] ∧ (after (exec .powerOnReset s)).hall.receiving = []
      ∧ (after (exec .pinReset s)).hall.receiving = []
      ∧ after (exec (.frameArrival .crib ⟨[0, 0x5A], true⟩) s) = s
      ∧ after (exec (.frameArrival .crib ⟨[], true⟩) s) = s := by decide +kernel

/-- A guard frame of section 9.6: SERVED for pocket 18 with assembly 310, nothing there, is blocked. -/
theorem test_guard_not_at_pocket :
    let s := after (exec (.toolData 12 1 [18, 3, 0x01, 0x36, 0, 0])
      { bench with issueMap := [(3089, 310)], assemblies := [(310, tool .inService none)] })
    s.guardBlocked = 1 ∧ s.hallTransit = []
      ∧ noticeBodies s = [.transitBlocked 1 12 18 3 (some 310) none none .notAtPocket] := by decide +kernel

/-- A guard frame of section 9.6: LOCKED for pocket 17 with assembly 310 WITHDRAWN there passes. -/
theorem test_guard_locked_passes :
    let s := after (exec (.toolData 12 1 [17, 2, 0x01, 0x36, 0, 0])
      { bench with issueMap := [(3089, 310)], assemblies := [(310, tool .withdrawn none)] })
    s.guardBlocked = 0 ∧ s.hallTransit.length = 1 := by decide +kernel

/-- A GENERAL frame from machine 3 for C/12 waits behind N1 and is granted after it (section 9.6, the crib port
under load, events 1 to 5). -/
theorem test_crib_port_grants :
    let n1 := after (exec (.contact 3 (gauge 0) 0) State.reset)
    let g1 := after (exec (.general .hall 12 3 [1]) n1)
    let done := after (exec (.transmissionCompletion .crib) g1)
    n1.cribEgress.sending.map (·.1) = some .notice ∧ n1.cribEgress.pointer = .transit
      ∧ g1.cribEgress = n1.cribEgress ∧ done.cribEgress.sending.map (·.1) = some .transit
      ∧ done.cribEgress.pointer = .answer ∧ done.notices = [] := by decide +kernel

/-- Two frames that the part originates, byte for byte from sections 9.2 and 9.3: the ISSUE_ANSWER GRANTED to counter
1 for assembly 310 at (12, 19), and the TOOL_DATA SERVED of 312 with one slot of 6 digits, -37. -/
theorem test_originated_frames :
    let answer : IssueAnswer :=
      { action := .issue, tag := 0xA0, status := .granted, assembly := some 310, place := some ⟨12, 19⟩, actual := none
        location := none, life := none, occupying := none, reason := none, draw := none }
    let covered : List Byte := [0x07, 0x00, 0x03, 27, 1, 0, 0, 0, 0, 0, 0, 0, 0xA0, 0x00, 0x03, 0x01, 0x36, 12, 19]
      ++ List.replicate 12 0
    let data : List Byte := [0x8C, 0x80, 0x08, 11, 17, 3, 0x01, 0x38, 0, 1, 0x06, 0xFF, 0xFF, 0xFF, 0xDB]
    answerFrame (.issueAnswer 1 answer) = 0xA5 :: covered ++ checkField covered
      ∧ handoffFrame ⟨12, 17, .served 312 .bankA [⟨6, false, false, false, -37⟩], false⟩
        = 0xA5 :: data ++ checkField data := by decide +kernel

/-- The completion of a SERVED frame brings its assembly into service (R146). -/
theorem test_entry_into_service :
    ((recordAt (after (exec (.transmissionCompletion .hall) bench)) 312).map (·.state)) = some .inService := by
  decide +kernel

/-! ## Lengths (chapter 4) -/

/-- The four readings of section 4.6. -/
theorem test_worked_lengths :
    ([1203311, 1203315, 1203305, 1203313] : List Int).map (fun x => compensated bank46 (gauge x))
      = [⟨852243, false⟩, ⟨852245, false⟩, ⟨852240, false⟩, ⟨852244, false⟩] := by decide +kernel

/-- Section 4.5: the ratio truncated and limited. -/
theorem test_limits_ratio :
    ratioStage { gauge 0 with gating := 1, sensor := 31220 } = (83966, false)
      ∧ ratioStage { gauge 0 with gating := 1, sensor := 2000 } = (1048575, true) := by decide +kernel

/-- Section 4.5: the gap inside with rounding, at the exact end, beyond it, below the start. -/
theorem test_limits_gap :
    gapStage bank46.breakpoints 83966 = (624, false) ∧ gapStage bank46.breakpoints 98304 = (5000, false)
      ∧ gapStage bank46.breakpoints 98467 = (5000, true) ∧ gapStage bank46.breakpoints 57344 = (-5000, true) := by
  decide +kernel

/-- Section 4.5: the position at a negative half, and limited. -/
theorem test_limits_position :
    positionStage bank46 (-1203311) = (-351656, false)
      ∧ positionStage { bank46 with scaleNum := 1000, scaleDen := 1 } 2000000000 = (999999999, true) := by
  decide +kernel

/-- Section 4.5: the thermal stage in the cold and at the reference temperature. -/
theorem test_limits_thermal :
    thermalStage bank46 852281 60 = (852328, false) ∧ thermalStage bank46 852281 80 = (852281, false) := by
  decide +kernel

/-- Section 4.5: a zero divisor and the overflow mark discard the reading. -/
theorem test_limits_discarded :
    readingOf bank46 { gauge 0 with gating := 1, sensor := 0 } = none
      ∧ readingOf bank46 { gauge 0 with overflow := true } = none := by decide +kernel

/-! ## Captures (chapters 3 and 5) -/

/-- A contact of head 0 with the tag of 311 arms it. -/
theorem test_contact_arms :
    (recordAt (after (exec (.contact 0 (gauge 1203311) 0xA1) bench)) 311).map (·.state) = some .measuring := by
  decide +kernel

/-- A contact with the tag of an assembly that head 1 holds is refused BUSY_ELSEWHERE (section 5.10, event 11). -/
theorem test_contact_busy_elsewhere :
    let s := after (exec (.contact 0 (gauge 0) 0xA0) bench)
    noticeBodies s
        = [.contactRefused 0 .busyElsewhere 0xA0 (some .length) (some 310) (some .measuring) (some 1)]
      ∧ (headAt s 0).slot = .latched := by decide +kernel

/-- Section 4.6: the fourth reading settles at 852,243 with PASS. -/
theorem test_sample_settles :
    let s := after (exec (.sample 1 (gauge 1203313)) bench)
    noticeBodies s = [.captureDone 1 310 .length 852243 852243 false .bankA 4 .pass .preset]
      ∧ (headAt s 1).slot = .latched := by decide +kernel

/-- Section 5.10, events 5 to 7: spans 18 and 6, the mean of four entries rounds to 1,250,126. -/
theorem test_span_and_mean :
    spanOf [⟨1250131, false⟩, ⟨1250140, false⟩, ⟨1250122, false⟩, ⟨1250128, false⟩] = 18
      ∧ spanOf [⟨1250122, false⟩, ⟨1250128, false⟩, ⟨1250126, false⟩, ⟨1250127, false⟩] = 6
      ∧ meanOf [⟨1250122, false⟩, ⟨1250128, false⟩, ⟨1250126, false⟩, ⟨1250127, false⟩] = 1250126 := by
  decide +kernel

/-- A release aborts the armed capture with RELEASED_EARLY (R87). -/
theorem test_release_aborts :
    noticeBodies (after (exec (.release 1 (gauge 0)) bench))
      = [.captureAborted 1 310 .length .releasedEarly .preset 3 3] := by decide +kernel

/-- Section 3.7, event 4: the abort, then HEAD_FAULT with the cancelled switch. -/
theorem test_reference_fault :
    let s := after (exec (.sample 1 lowGauge) held)
    noticeBodies s
        = [.captureAborted 1 310 .length .referenceFault .preset 3 3,
          .headFault 1 38512 .sample .bankA 39980 40020 (some 310) (some .bankB)]
      ∧ (headAt s 1).status = .fault ⟨38512, .sample, .bankA⟩ := by decide +kernel

/-- The 64th reading that does not settle times out (R86). -/
theorem test_settle_timeout :
    noticeBodies (after (exec (.settleTimeout 1 (gauge 0)) late))
        = [.captureAborted 1 310 .length .settleTimeout .preset 64 1]
      ∧ after (exec (.settleTimeout 1 (gauge 0)) bench) = bench := by decide +kernel

/-- CAPTURE_ABORTED before SWITCH_DONE at a capture's end (R87, R98). -/
theorem test_at_capture_end :
    noticeBodies (after (exec (.atCaptureEnd 1 .release (gauge 0) 0) held))
      = [.captureAborted 1 310 .length .releasedEarly .preset 3 3,
        .calSwitchDone 1 .bankB .bankA (some 310) .ready] := by decide +kernel

/-! ## Records, types and the sweep (chapters 1 and 2) -/

/-- The evaluation example of section 1.4, line by line. -/
theorem test_evaluation_example :
    let t : TypeRecord :=
      { TypeRecord.reset with
        axes := .lengthRadius, nominalL := 852000, lowerL := -500, upperL := 500, nominalR := 100000, lowerR := -200 }
    let r := fun (l : Int) (clamp : Bool) (x : Option (Int × Bool)) =>
      outcomeOf t
        { tool .partly none with
          length := some ⟨l, true, clamp, 0, .bankA⟩
          radius := x.map fun y => ⟨y.1, y.2, false, 0, .bankA⟩ } .partly
    [r 852243 false none, r 852243 false (some (99950, false)), r 852243 false (some (99950, true)),
        r 852243 false (some (100150, true)), r 852600 false (some (100150, true)),
        r 852243 true (some (100150, true))]
      = [.partly, .partly, .preset, .rejected, .rejected, .rejected] := by decide +kernel

/-- A base of 300 with exponent 6 is stored as 256 and holds 256 to 319 (section 1.6). -/
theorem test_hold_window :
    storedWindow? ⟨1, 300, 6, 0⟩ = some ⟨true, 256, 6, false⟩
      ∧ [255, 256, 319, 320].map (covers ⟨true, 256, 6, false⟩) = [false, true, true, false]
      ∧ [255, 256, 1023, 1024].map (covers ⟨true, 256, 6, true⟩) = [true, false, true, false] := by decide +kernel

/-- Section 1.5, Reading the Table Across the Wrap: from 1019 eleven slots give 1020, 1022, 3 and 5; from 6 the read
goes round to 3; and no record after the last one ends a read before 1,024 slots. -/
theorem test_read_assemblies_wraps :
    let s := { State.reset with assemblies := [3, 5, 700, 1020, 1022].map fun n => (n, tool .built none) }
    let read := fun (start count : Nat) =>
      let x := scanRecords s 1024 start count
      (x.1, (start + x.1) % 1024, x.2.map (·.number))
    [read 1019 4, read 6 4] = [(11, 6, [1020, 1022, 3, 5]), (1022, 4, [700, 1020, 1022, 3])]
      ∧ scanRecords State.reset 1024 1023 1 = (1024, []) := by decide +kernel

/-- CREATE answers BUILT; a second CREATE of the number is refused STATE (R13). -/
theorem test_create_then_state :
    let s := after (exec (.create 5 7 45 none) bench)
    lastAnswer s = some (.reply 0x40 5 .ok 1 (.assemblyState 7 .built))
      ∧ lastAnswer (after (exec (.create 6 7 45 none) s)) = some (.reply 0x40 6 .state 1 (.assembly 7)) := by
  decide +kernel

/-- The RESTORE body of a target with a length entry of this value, a reason and a place. -/
def restoreBody (target : Nat) (value : Int) (reason : Option Nat) (place : Option Place) : RestoreBody :=
  ⟨45, none, some ⟨value, 0, 0, 3, 0⟩, none, 0, 0, 0, 0, reason, target, place⟩

/-- RESTORE into slot 7 (R14, R15): PRESET out of tolerance is stored REJECTED, REMEASURE goes STALE, ISSUED out of
tolerance gets the recheck flag, WITHDRAWN keeps its reason; over an equal record it is NO_CHANGE; a number that is out
of the crib, an undefined type, a bound tag, a place beyond the magazine and an occupied one are refused. -/
theorem test_restore_stores :
    let stored := fun b : RestoreBody =>
      (recordAt (after (exec (.restore 1 7 b) bench)) 7).map fun r =>
        (r.state, r.length.map (·.fresh), r.recheck, r.reason)
    let answer := fun (n : Nat) (b : RestoreBody) => lastAnswer (after (exec (.restore 1 n b) bench))
    let refused := fun (n : Nat) (status : Status) => some (.reply 0x41 1 status 0 (.assembly n))
    let p : Option Place := some ⟨12, 40⟩
    [restoreBody 3 852243 none none, restoreBody 3 853000 none none, restoreBody 5 852243 none none,
        restoreBody 6 853000 none p, restoreBody 8 852243 (some 2) p].map stored
      = [some (.preset, some true, false, none), some (.rejected, some true, false, none),
        some (.remeasure, some false, false, none), some (.issued, some true, true, none),
        some (.withdrawn, some true, false, some .life)]
      ∧ answer 314 { restoreBody 9 852243 none none with length := some ⟨852243, 0, 0, 1, 0⟩ }
        = some (.reply 0x41 1 .noChange 0 (.assemblyState 314 .retired))
      ∧ [answer 312 (restoreBody 3 0 none none), answer 7 { restoreBody 3 0 none none with type := 128 },
          answer 7 { restoreBody 3 0 none none with tag := some 0xA0 }, answer 7 (restoreBody 6 0 none (some ⟨12, 41⟩)),
          answer 7 (restoreBody 6 0 none (some ⟨12, 17⟩))]
        = [refused 312 .state, refused 7 .badIndex, refused 7 .tagInUse, refused 7 .badIndex, refused 7 .state] := by
  decide +kernel

/-- Bodies that are not well formed (R14 check 4), each one value off one that is: an unlisted or excluded target, a
value, head, code or reason out of range, an entry with BUILT, a reason or place that the target does not have, and one
that it lacks. -/
theorem test_restore_bodies :
    let e : EntryBody := ⟨999999999, 1, 1, 3, 1⟩
    let b : RestoreBody := { restoreBody 3 0 none none with length := some e, recheck := 1 }
    let p : Option Place := some ⟨0, 0⟩
    [b, { b with target := 9, reason := some 3 }, { b with target := 8, reason := some 1, location := p },
        { b with target := 7, location := p }, { b with target := 0, length := none }].map
        (fun x => (describedRecord? x).isSome) = List.replicate 5 true
      ∧ [{ b with target := 1 }, { b with target := 2 }, { b with target := 10 },
          { b with length := some { e with value := 1000000000 } }, { b with radius := some { e with head := 4 } },
          { b with length := some { e with freshness := 2 } }, { b with length := some { e with clamp := 2 } },
          { b with radius := some { e with bank := 2 } }, { b with recheck := 2 }, { b with reason := some 1 },
          { b with target := 9, reason := some 4 }, { b with target := 0 }, { b with location := p },
          { b with target := 6 }, { b with target := 8, location := p }].map describedRecord?
        = List.replicate 15 none := by decide +kernel

/-- UNBIND_TAG of the marked 311 reviews it first, so the mark goes as otherwise cleared (R17, R37). -/
theorem test_unbind_reviews :
    let s := after (exec (.unbindTag 1 311) bench)
    s.sweep = { Sweep.reset with state := .running, otherwise := 1 } ∧ tableGet s.tagMap 0xA1 = none := by
  decide +kernel

/-- BIND_TAG refuses a tag bound elsewhere; CHANGE_TYPE an undefined type; REBUILD makes 314 BUILT; DELETE of an
issued assembly is refused (R16 to R19). -/
theorem test_edits :
    (lastAnswer (after (exec (.bindTag 1 314 0xA1) bench))
        = some (.reply 0x42 1 .tagInUse 0 (.assembly 314)))
      ∧ lastAnswer (after (exec (.changeType 1 314 44) bench)) = some (.reply 0x42 1 .badIndex 0 (.assembly 314))
      ∧ lastAnswer (after (exec (.rebuild 1 314) bench))
        = some (.reply 0x42 1 .ok 1 (.assemblyState 314 .built))
      ∧ lastAnswer (after (exec (.delete 1 312) bench)) = some (.reply 0x43 1 .state 0 (.assembly 312)) := by
  decide +kernel

/-- The WRITE_TYPE body of `type45` with another upper length limit. -/
def typeBody (upper : Int) : TypeBody := ⟨1, 0, 852000, -500, upper, 0, 0, 0, 20, 240, 0, 0, 3000⟩

/-- A tolerance write marks the assemblies of its type and starts the sweep (section 2.7, event 1): of the bench's
five, MEASURING, PRESET and ISSUED are marked, WITHDRAWN and RETIRED are not. -/
theorem test_tolerance_write :
    let idle := { bench with
      sweep := Sweep.reset, assemblies := bench.assemblies.map fun e => (e.1, { e.2 with marked := false }) }
    let s := after (exec (.writeType 1 45 (typeBody 200)) idle)
    s.sweep = { Sweep.reset with state := .running, marks := 3 }
      ∧ (s.assemblies.filter (·.2.marked)).map (·.1) = [310, 311, 312]
      ∧ (lastAnswer (after (exec (.writeType 1 45 (typeBody 200)) bench))
        = some (.reply 0x10 1 .busy 0 (.typeNumber 45))) := by decide +kernel

/-- A step evaluates the lowest mark, and the next one ends the sweep (R34, R35). -/
theorem test_sweep_steps :
    let s := after (exec .sweepStep bench)
    let done := after (exec .sweepEnd s)
    s.sweep = { Sweep.reset with state := .running, cursor := 312, stepped := 1 }
      ∧ noticeBodies done = [.sweepDone 1 0] ∧ done.sweep.state = .idle
      ∧ after (exec .sweepEnd bench) = bench := by decide +kernel

/-- SWEEP_SUSPEND, then SWEEP_RESUME; a resume of a RUNNING sweep is refused STATE (R36). -/
theorem test_sweep_suspend :
    let s := after (exec (.sweepSuspend 1) bench)
    s.sweep.state = .suspended ∧ (after (exec (.sweepResume 1) s)).sweep = bench.sweep
      ∧ lastAnswer (after (exec (.sweepResume 2) bench)) = some (.reply 0x61 2 .state 0 (.sweep .running 0 1)) := by
  decide +kernel

/-! ## Issue and return (chapter 6) -/

/-- The draws of section 6.8. -/
theorem test_audit_draws :
    [1, 8192, 16385, 3, 8191].map auditStep = [2, 16385, 3, 6, 16382] := by decide +kernel

/-- Section 6.7: the grant of a PRESET assembly to a free pocket, and POCKET_OCCUPIED at an occupied one. -/
theorem test_issue :
    let s := after (exec (.issue 1 0xA1 12 19) bench)
    s.issueMap = [(3089, 312), (3090, 313), (3091, 311)]
      ∧ s.waitList = [⟨12, 18, false⟩, ⟨12, 19, false⟩]
      ∧ (recordAt s 311).map (·.location) = some (some ⟨12, 19⟩)
      ∧ (lastAnswer (after (exec (.issue 2 0xA1 12 17) bench))
        = some (.issueAnswer 2
            { action := .issue, tag := 0xA1, status := .pocketOccupied, assembly := some 311
              place := some ⟨12, 17⟩, actual := none, location := none, life := none, occupying := some 312
              reason := none, draw := none })) := by decide +kernel

/-- Section 6.7, event 7: the return of a WITHDRAWN assembly retires it; the draw is 2. -/
theorem test_return_retires :
    let s := after (exec (.returnHolder 3 0xA3) bench)
    s.issueMap = [(3089, 312)] ∧ s.audit = 2
      ∧ (recordAt s 313).map (fun r => (r.state, r.reason, r.location)) = some (.retired, some .life, none)
      ∧ s.waitList = bench.waitList := by decide +kernel

/-- A forced return that the draw selects (section 6.7, last paragraph) stales the entry and voids the SERVED frame. -/
theorem test_force_return_selected :
    let s := after (exec (.forceReturn 1 312) bench)
    (recordAt s 312).map (fun r => (r.state, r.length.map (·.fresh))) = some (.remeasure, some false)
      ∧ s.handoff.map (·.void) = [true]
      ∧ noticeBodies s = [.auditSelected 312 45 2 3000 ⟨12, 17⟩ none] := by decide +kernel

/-- SEED_AUDIT stores 0 as 1 (R115). -/
theorem test_seed_zero :
    (after (exec (.seedAudit 1 0) { bench with audit := 5 })).audit = 1
      ∧ lastAnswer (after (exec (.seedAudit 1 0) bench)) = some (.reply 0x51 1 .noChange 0 (.audit 1)) := by
  decide +kernel

/-- READ_POCKETS from pocket 1 ends with its second occupied pocket; from 18 it ends at pocket 240 (R102). -/
theorem test_read_pockets :
    lastAnswer (after (exec (.readPockets 1 12 1 2) bench))
      = some (.reply 0x37 1 .ok 0
          (.pockets 12 true 40 18 (some 19)
            [⟨17, 312, .issued, none, false, false⟩, ⟨18, 313, .withdrawn, some .life, false, false⟩]))
      ∧ lastAnswer (after (exec (.readPockets 1 12 18 16) bench))
        = some (.reply 0x37 1 .ok 0
          (.pockets 12 true 40 223 none [⟨18, 313, .withdrawn, some .life, false, false⟩])) := by
  decide +kernel

/-! ## Profiles and handoff (chapters 7 and 8) -/

/-- The formatting example of section 7.3: values and flags of the nine slots. -/
theorem test_formatting_example :
    let t : TypeRecord := { TypeRecord.reset with axes := .lengthRadius, nominalL := 1250000, lifeLimit := 600 }
    let r : Assembly :=
      { tool .inService none with
        type := 21, length := some ⟨1250126, true, false, 0, .bankA⟩
        radius := some ⟨79965, true, false, 0, .bankA⟩, lifeUsed := 95, lengthWear := -37, radiusWear := 4 }
    let slots : List OutputSlot :=
      [⟨0, 3, 6, false, false⟩, ⟨1, 4, 5, false, false⟩, ⟨2, 4, 3, true, false⟩, ⟨3, 1, 1, false, true⟩,
        ⟨6, 0, 2, false, false⟩, ⟨0, 2, 6, false, false⟩, ⟨4, 1, 7, false, false⟩, ⟨9, 0, 3, false, false⟩,
        ⟨7, 0, 4, false, false⟩]
    slots.map (fun x => (fun y => (y.value, y.saturated, y.blank)) (formatSlot 2000 t 120 r x))
      = [(49296, false, false), (31482, false, false), (15, false, false), (0, false, true), (99, true, false),
        (999999, true, false), (125000, false, false), (0, false, false), (120, false, false)] := by decide +kernel

/-- Section 8.8, event 1: the slots of 310 at machine 12. -/
theorem test_served_slots :
    profile88.slots.map (fun x => (formatSlot profile88.offset type45 310 (tool .issued none) x).value)
      = [33612, 240, 0] := by decide +kernel

/-- A take for the pocket of a WITHDRAWN assembly builds a LOCKED frame (R144). -/
theorem test_take_locked :
    let s := after (exec .handoffTake bench)
    s.waitList = [] ∧ s.handoff.map (fun f => (f.pocket, f.content matches .locked 313 ..))
      = [(17, false), (18, true)] := by decide +kernel

/-- Section 7.6: a switch with one waiting entry marks it, and its take drains the switch (R133, R134). -/
theorem test_switch_and_drain :
    let s := after (exec (.switchProfile 1 12 1) bench)
    let done := after (exec (.atDrain 12) s)
    (machineAt s 12).map (fun x => (x.active, x.switch)) = some (.bankA, some ⟨.bankB, 1, 1⟩)
      ∧ s.waitList = [⟨12, 18, true⟩]
      ∧ (machineAt done 12).map (fun x => (x.active, x.switch)) = some (.bankB, none)
      ∧ noticeBodies done = [.profileSwitchDone 12 .bankB .bankA true 1] := by decide +kernel

/-- SWITCH_PROFILE to the active bank cancels the pending switch and its marks without a notice, to the pending target
it changes nothing (R132). -/
theorem test_switch_profile_redundant :
    let pending := after (exec (.switchProfile 1 12 1) bench)
    let back := after (exec (.switchProfile 2 12 0) pending)
    let again := after (exec (.switchProfile 2 12 1) pending)
    lastAnswer back = some (.reply 0x33 2 .redundant 1 (.redundant (some .bankB)))
      ∧ back.waitList = bench.waitList ∧ back.machines = bench.machines ∧ back.notices = []
      ∧ lastAnswer again = some (.reply 0x33 2 .ok 1 .none) ∧ again.machines = pending.machines
      ∧ again.waitList = pending.waitList := by decide +kernel

/-- CANCEL_PROFILE_SWITCH takes the marks away (R135). -/
theorem test_cancel_profile_switch :
    let s := after (exec (.cancelProfileSwitch 2 12) (after (exec (.switchProfile 1 12 1) bench)))
    s.waitList = bench.waitList ∧ noticeBodies s = [.profileSwitchCancelled 12 .bankB 1] := by decide +kernel

/-- A paused machine's entry is not taken (R141, R147). -/
theorem test_pause_blocks_take :
    let s := after (exec (.pauseHandoff 1 12) bench)
    lastAnswer s = some (.reply 0x35 1 .ok 0 (.handoffPaused 12 true 1)) ∧ nextTake s = none
      ∧ nextTake (after (exec (.resumeHandoff 1 12) s)) = some ⟨12, 18, false⟩ := by decide +kernel

/-- A waiting pair folds, a new one joins (R140; section 8.8, event 5). -/
theorem test_data_request_folds :
    (after (exec (.dataRequest 12 18) bench)).waitList = [⟨12, 18, false⟩]
      ∧ (after (exec (.dataRequest 12 240) bench)).waitList = [⟨12, 18, false⟩, ⟨12, 240, false⟩] := by
  decide +kernel

/-- Section 8.8, events 3 and 4: 90 minutes are added, 250 in all withdraw with LIFE. -/
theorem test_usage :
    let used := after (exec (.usage 12 ⟨17, 312, 90, 0, 0, false⟩) bench)
    let s := after (exec (.usage 12 ⟨17, 312, 160, 0, 0, false⟩) used)
    (recordAt used 312).map (fun r => (r.state, r.lifeUsed)) = some (.issued, 90)
      ∧ (recordAt s 312).map (fun r => (r.state, r.lifeUsed, r.reason)) = some (.withdrawn, 250, some .life)
      ∧ s.waitList = [⟨12, 18, false⟩, ⟨12, 17, false⟩] := by decide +kernel

/-- DEFINE_MACHINE that would leave 313 outside its magazine is refused STATE (R121). -/
theorem test_define_machine_occupied :
    lastAnswer (after (exec (.defineMachine 1 12 ⟨1, 17, 1⟩) bench)) = some (.reply 0x30 1 .state 0 .none)
      ∧ (machineAt (after (exec (.defineMachine 1 12 ⟨1, 18, 1⟩) bench)) 12).map (·.magazine) = some 18 := by
  decide +kernel

/-- WRITE_PROFILE of the valid active bank is refused ACTIVE_BANK; READ_PROFILE of machine 32 BAD_INDEX (R129,
R130). -/
theorem test_profile_refusals :
    lastAnswer (after (exec (.writeProfile 1 12 0 ⟨0, [], 0⟩) bench)) = some (.reply 0x31 1 .activeBank 0 .none)
      ∧ lastAnswer (after (exec (.readProfile 1 32 0) bench)) = some (.reply 0x32 1 .badIndex 0 .none) := by
  decide +kernel

/-- The first failing slot is the reason, by the first of SOURCE, WIDTH and UNIT, with its position (R124). -/
theorem test_profile_reason :
    let good : OutputSlot := ⟨5, 4, 9, false, false⟩
    let reason := fun slots : List OutputSlot => profileReason ⟨slots, 0⟩
    [reason [], reason [good, ⟨9, 0, 1, true, true⟩], reason [good, ⟨10, 0, 0, false, false⟩],
        reason [⟨5, 0, 0, false, false⟩, ⟨10, 0, 0, false, false⟩], reason [good, good, ⟨9, 0, 10, false, false⟩],
        reason [good, ⟨0, 0, 1, false, false⟩], reason [⟨5, 5, 9, false, false⟩], reason [⟨6, 5, 9, false, false⟩]]
      = [some .slotCount, none, some (.source 2), some (.width 1), some (.width 3), some (.unit 2), some (.unit 1),
        none] := by decide +kernel

/-! ## Calibration and management (chapters 4 and 10) -/

/-- WRITE_CAL of a valid active bank makes the UNCALIBRATED head 3 READY; α 45 is stored as 30 (R60, R61). -/
theorem test_write_cal :
    let s := after (exec (.writeCal 1 3 0 ⟨2, bank46.breakpoints, 1, 2, 250000, 45, 39980, 40020, 4⟩) bench)
    (headAt s 3).status = .ready ∧ (headAt s 3).bankA = { bank46 with alpha := 30 } := by decide +kernel

/-- A switch during a capture becomes pending, one of a FAULT head completes and stays FAULT (R63, R64). -/
theorem test_switch_cal :
    (headAt (after (exec (.switchCal 1 1 1) bench)) 1).pendingCal = some .bankB
      ∧ (fun x : Head => (x.active, x.status)) (headAt (after (exec (.switchCal 1 2 1) bench)) 2)
        = (.bankB, .fault ⟨38512, .sample, .bankA⟩) := by decide +kernel

/-- SWITCH_CAL to the active bank cancels a pending switch without a notice, to the pending target it changes nothing
(R62). -/
theorem test_switch_cal_redundant :
    let back := after (exec (.switchCal 1 1 0) held)
    let again := after (exec (.switchCal 1 1 1) held)
    lastAnswer back = some (.reply 0x22 1 .redundant 0 (.redundant (some .bankB)))
      ∧ (headAt back 1).pendingCal = none ∧ back.notices = []
      ∧ lastAnswer again = some (.reply 0x22 1 .ok 0 .none) ∧ again.heads = held.heads := by decide +kernel

/-- CANCEL_CAL_SWITCH without a pending switch is refused STATE; HEAD_RESTORE makes head 2 READY (R54, R66). -/
theorem test_cancel_and_restore :
    lastAnswer (after (exec (.cancelCalSwitch 1 1) bench)) = some (.reply 0x23 1 .state 0 .none)
      ∧ (headAt (after (exec (.headRestore 1 2) bench)) 2).status = .ready := by decide +kernel

/-- The first failing check of R58 is the reason, each bank one step past its limit and meeting the checks before. -/
theorem test_cal_reason :
    let points := fun n : Nat => (List.range n).map fun k => (⟨k, 0⟩ : Breakpoint)
    let bad := { bank46 with scaleNum := 0, refMin := 0, depth := 3 }
    [bank46, { bank46 with breakpoints := points 16, refMin := 1, depth := 8 }, { bad with breakpoints := points 1 },
        { bad with breakpoints := points 17 }, { bad with breakpoints := [⟨5, 0⟩, ⟨5, 0⟩] }, bad,
        { bank46 with scaleDen := 0 }, { bank46 with refMin := 0, depth := 3 }, { bank46 with refMax := 39979 },
        { bank46 with depth := 3 }].map calReason
      = [none, none, some .breakpointCount, some .breakpointCount, some .breakpointOrder, some .scaleZero,
        some .scaleZero, some .window, some .window, some .settleDepth] := by decide +kernel

/-- READ_TYPE, READ_CAL, IDENTIFY and READ_STATUS answer OK. -/
theorem test_reads :
    lastAnswer (after (exec (.readType 1 45) bench))
        = some (.reply 0x11 1 .ok 0 (.typeRecord 45 { type45 with inUse := 5 }))
      ∧ lastAnswer (after (exec (.readCal 1 0 0) bench))
        = some (.reply 0x21 1 .ok 0 (.calBank 0 .bankA bank46 none true none .ready))
      ∧ lastAnswer (after (exec (.identify 1) bench)) = some (.reply 0x01 1 .ok 0 .identity)
      ∧ (statusReport bench).queues = [0, 0, 0, 0, 1, 1] := by decide +kernel

/-- Section 10.6, protection under the key: LOCKED with the key off sets the flag; with it on the write advances the
generation; CLEAR_STATUS clears the flag. -/
theorem test_protection_under_key :
    let keyed := { bench with protection := .keyed, generation := 410 }
    let refused := after (exec (.seedAudit 1 9) keyed)
    let on := after (exec (.seedAudit 1 9) (after (exec (.keyLineChange true) refused)))
    (refused.protectionError, refused.generation, lastAnswer refused)
        = (true, 410, some (.reply 0x51 1 .locked 410 .none))
      ∧ (on.protectionError, on.generation, on.audit) = (true, 411, 9)
      ∧ (after (exec (.clearStatus 1) on)).protectionError = false
      ∧ (after (exec (.setProtection 1 2) on)).protection = .locked := by decide +kernel

/-- CLEAR_COUNTERS sets every counter to 0; READ_COUNTERS reads 22 of them (R183). -/
theorem test_counters :
    let s := { bench with usageMismatch := 7, hall := { bench.hall with malformed := 3 } }
    (eventCounters s).sum = 10 ∧ (eventCounters (after (exec (.clearCounters 1) s))).sum = 0
      ∧ lastAnswer (after (exec (.readCounters 1) s)) = some (.reply 0x04 1 .ok 0 (.counters (eventCounters s))) := by
  decide +kernel

/-- Line reset aborts the capture without a notice, empties the queues and answers first (R184). -/
theorem test_line_reset :
    let s := after (exec (.lineReset 1) bench)
    (recordAt s 310).map (·.state) = some .preset ∧ s.waitList = [] ∧ s.handoff = [] ∧ s.notices = []
      ∧ s.cribEgress.sending.map (·.1) = some .answer ∧ s.sweep.state = .running := by decide +kernel

/-- An unknown code, and a known code with a body of the wrong length (R176). -/
theorem test_unreadable :
    lastAnswer (after (exec (.unknownRequest 0x77 1 []) bench)) = some (.reply 0x77 1 .unknownRequest 0 .none)
      ∧ lastAnswer (after (exec (.unknownRequest 0x11 1 []) bench)) = some (.reply 0x11 1 .invalidTable 0 .none) := by
  decide +kernel

/-- The resets: supply makes the mode OPEN, the pin keeps LOCKED and holds the part until its release (R179, R185). -/
theorem test_resets :
    let locked := { bench with protection := .locked }
    after (exec .powerOnReset locked) = State.reset
      ∧ after (exec .pinReset locked) = { State.reset with resetPin := true, protection := .locked }
      ∧ (after (exec .resetPinRelease (after (exec .pinReset locked)))).resetPin = false := by decide +kernel

/-- A notice at a full queue is discarded and counted (section 10.6, notice loss). -/
theorem test_notice_loss :
    let full := { bench with notices := List.replicate 24 ⟨0, .sweepDone 0 0⟩, discardedNotices := 2 }
    (notify (.sweepDone 1 0) full).discardedNotices = 3
      ∧ (notify (.sweepDone 1 0) { full with notices := full.notices.tail }).notices.getLast?
        = some ⟨2, .sweepDone 1 0⟩ := by decide +kernel

/-! ## A state and operands for the hypotheses of every statement -/

/-- The bench meets every invariant. -/
theorem bench_legal :
    CountsInRange bench ∧ TablesCanonical bench ∧ StoresLegal bench ∧ HeadsLegal bench ∧ CapturesMatch bench
      ∧ TagsMatch bench ∧ PlacesMatch bench ∧ MagazinesHold bench ∧ TypesCounted bench ∧ MarksCounted bench
      ∧ WaitersDistinct bench ∧ SwitchesCounted bench ∧ PortsBusy bench ∧ PresetSound bench := by
  unfold CountsInRange TablesCanonical StoresLegal TypeLegal WindowLegal MachineLegal HeadsLegal HeadLegal
    CapturesMatch TagsMatch PlacesMatch MagazinesHold TypesCounted MarksCounted WaitersDistinct SwitchesCounted
    PortsBusy PresetSound
  refine ⟨?_, ?_, ?_, ?_, ?_, ?_, ?_, ?_, ?_, ?_, ?_, ?_, ?_, ?_⟩ <;> decide +kernel

/-- The bench with one command waiting. -/
def waiting (i : Instr) : State := { bench with pending := [i] }

theorem waiting_steps (i : Instr) : step (waiting i) = exec i bench := rfl

theorem witness_StepRunsFrontCommand : State.reset.pending = [] := rfl

theorem witness_ResetPinHoldsInitialCondition :
    let s := { State.reset with resetPin := true, pending := [.identify 1] }
    InitialUnderReset s ∧ step s = .next { s with pending := [] } := ⟨fun _ => rfl, rfl⟩

theorem witness_RequestsDecodeFromTheirBodies :
    (Instr.writeType 255 45 (typeBody 200)).wellFormed = true
      ∧ listedRequest (.writeType 255 45 (typeBody 200)) = true
      ∧ encodeRequest (.writeType 255 45 (typeBody 200)) = some (0x10, 255, putU8 45 ++ putTypeBody (typeBody 200)) :=
  by decide +kernel

theorem witness_FramesDecodeToTheirCommands :
    (Instr.dataRequest 31 240).wellFormed = true
      ∧ encodeFrame (.dataRequest 31 240) = some (.hall, buildFrame .hall 0 .hall 31 0x07 (putU8 240))
      ∧ (Instr.usage 12 ⟨17, 312, 90, -5, 5, false⟩).wellFormed = true
      ∧ (encodeFrame (.usage 12 ⟨17, 312, 90, -5, 5, false⟩)).isSome = true
      ∧ (Instr.contact 1 (gauge (-2147483648)) 0).wellFormed = true
      ∧ (encodeFrame (.contact 1 (gauge (-2147483648)) 0)).isSome = true := by decide +kernel

theorem witness_FrameArrivalRunsItsCommand :
    let frame := buildFrame .crib 0 .crib 1 0x04 [1, 7]
    (Instr.identify 7).wellFormed = true ∧ encodeFrame (.identify 7) = some (.crib, frame)
      ∧ (portAt bench .crib).receiving = [] ∧ bench.resetPin = false ∧ frame = frame.take 5 ++ frame.drop 5
      ∧ frame = [] ++ frame ∧ frame = frame ++ [] ∧ machineDefined bench 31 = false
      ∧ (Instr.dataRequest 31 240).wellFormed = true ∧ (encodeFrame (.dataRequest 31 240)).isSome = true := by
  decide +kernel

theorem witness_DroppedFramesAreCounted :
    let half : State := { bench with crib := { bench.crib with receiving := [0xA5, 0, 1] } }
    bench.resetPin = false ∧ (portAt bench .hall).receiving = [] ∧ (0xA5 : Byte) ∉ ([0, 0x5A] : List Byte)
      ∧ (portAt half .crib).receiving ≠ [] ∧ ([0xA5, 0] : List Byte).head? = some 0xA5
      ∧ arrivalOf (machineDefined half) .crib ((portAt half .crib).receiving ++ [4, 2]) = .counted .checkError
      ∧ [startDelimiter, 0, 1, 4, 2, 1].length < 7 ∧ ([0, 0] : List Byte) ≠ checkField [0, 1, 4, 2, 1, 7] := by
  decide +kernel

/-- The arrival, at a part where machine 12 alone is defined, of the frame with these header bytes and payload. -/
def lineFrame (port : Port) (dst src kind len : Byte) (payload : List Byte) : Arrival :=
  let covered := dst :: src :: kind :: len :: payload
  arrivalOf (fun m => m = 12) port (0xA5 :: covered ++ checkField covered)

/-- Headers that fail R161: a length above 240 or not of the payload, header bits 5 and 6, the other segment as
source, an unknown kind; and one that each of these lets through. -/
theorem witness_DroppedFramesAreCounted_headers :
    [lineFrame .crib 0x83 1 15 241 [0], lineFrame .crib 0x83 1 15 2 [0], lineFrame .crib 0x83 1 15 0 [0],
        lineFrame .crib 0x20 1 15 0 [], lineFrame .crib 0x83 0x40 15 0 [], lineFrame .crib 0x83 0x81 15 0 [],
        lineFrame .hall 3 1 15 0 [], lineFrame .crib 0x83 1 0 0 [], lineFrame .crib 0x83 1 10 0 [],
        lineFrame .crib 0x83 1 14 0 []]
      = List.replicate 10 (.counted .malformed)
      ∧ (List.replicate 241 (0 : Byte)).length = (241 : Byte).toNat ∧ ¬(241 : Byte).toNat ≤ 240
      ∧ lineFrame .crib 0x9F 31 15 1 [0] = .command (.general .crib 31 31 [0]) := by decide +kernel

/-- Kinds and sources that R162 and R163 refuse, at the edge of each range, and what the neighbours of the edge are. -/
theorem witness_DroppedFramesAreCounted_kinds_and_sources :
    [lineFrame .crib 3 1 4 0 [], lineFrame .hall 0x83 0x8C 8 0 []] = [.ignored, .ignored]
      ∧ [lineFrame .crib 0x83 1 9 0 [], lineFrame .hall 3 0x8C 8 0 [], lineFrame .crib 0 1 8 0 [],
          lineFrame .crib 0 1 3 0 [], lineFrame .hall 0 0x8C 8 0 [], lineFrame .hall 0 0x8C 15 0 []]
        = List.replicate 6 (.counted .kindRefused)
      ∧ [lineFrame .crib 0 1 1 0 [], lineFrame .crib 0 6 1 0 [], lineFrame .crib 0 5 2 0 [], lineFrame .crib 0 10 2 0 [],
          lineFrame .crib 0 0 4 0 [], lineFrame .crib 0 2 4 0 [], lineFrame .hall 0 0x8D 7 1 [1],
          lineFrame .hall 0 0x80 9 0 []]
        = List.replicate 8 (.counted .sourceRefused)
      ∧ lineFrame .crib 0x83 1 8 0 [] = .command (.toolData 3 1 []) := by decide +kernel

/-- Payloads of no form of their kind (R164), each one byte or one value off a form that is taken. -/
theorem witness_DroppedFramesAreCounted_payloads :
    [lineFrame .crib 0 2 1 0 [], lineFrame .crib 0 5 1 20 (0 :: List.replicate 19 0),
        lineFrame .crib 0 2 1 14 (1 :: List.replicate 13 0), lineFrame .crib 0 2 1 13 (3 :: List.replicate 12 0),
        lineFrame .crib 0 6 2 9 (1 :: List.replicate 8 0), lineFrame .crib 0 9 2 11 (2 :: List.replicate 10 0),
        lineFrame .crib 0 6 2 9 (0 :: List.replicate 8 0), lineFrame .crib 0 1 4 1 [1], lineFrame .hall 0 0x8C 7 1 [0],
        lineFrame .hall 0 0x8C 7 1 [241], lineFrame .hall 0 0x8C 7 2 [1, 1],
        lineFrame .hall 0 0x8C 9 13 (List.replicate 13 0)]
      = List.replicate 12 (.counted .malformed)
      ∧ lineFrame .crib 0 9 2 9 (2 :: List.replicate 8 0) = .command (.returnHolder 3 0)
      ∧ lineFrame .hall 0 0x8C 7 1 [240] = .command (.dataRequest 12 240) := by decide +kernel

/-- Seven and eight frames in a transit FIFO. -/
def seven : List Frame := List.replicate 7 (generalFrame .crib 1 1 [])

theorem witness_GeneralEntersOrIsDropped :
    bench.resetPin = false ∧ seven.length < 8 ∧ 8 ≤ (seven ++ [generalFrame .crib 1 1 []]).length := by
  decide +kernel

theorem witness_GuardPassesOrBlocks :
    bench.resetPin = false ∧ bench.hallTransit.length < 8
      ∧ guardView? [17, 3, 0x01, 0x38, 0, 0] = some ⟨17, .served, 312⟩
      ∧ occupant bench ⟨12, 17⟩ = some 312 ∧ ((recordAt bench 312).any fun r => r.state = .withdrawn) = false
      ∧ guardView? [18, 2, 0x01, 0x39, 0, 0] = some ⟨18, .locked, 313⟩ ∧ occupant bench ⟨12, 18⟩ = some 313
      ∧ ((recordAt bench 313).any fun r => r.state = .withdrawn) = true
      ∧ guardView? [240, 0, 0, 0, 0, 0] = some ⟨240, .empty, 0⟩ ∧ occupant bench ⟨12, 240⟩ = none
      ∧ guardView? [1, 1, 0, 0, 0, 0] = some ⟨1, .noProfile, 0⟩ ∧ 8 ≤ (seven ++ [generalFrame .crib 1 1 []]).length
      ∧ guardView? ([1, 3, 0x03, 0xFF, 1, 12] ++ List.replicate 60 0) = some ⟨1, .served, 1023⟩
      ∧ [[], [0, 0, 0, 0, 0, 0], [241, 0, 0, 0, 0, 0], [1, 4, 0, 0, 0, 0], [1, 0, 4, 0, 0, 0], [1, 0, 0, 0, 2, 0],
          [1, 0, 0, 0, 0, 1], [1, 3, 0, 0, 0, 13] ++ List.replicate 65 0].map guardView? = List.replicate 8 none := by
  decide +kernel

theorem witness_CompletionFreesItsSource :
    bench.hallEgress.sending = some (.handoff, handoffFrame served312) ∧ bench.handoff = [served312]
      ∧ served312.content = .served 312 .bankA [] ∧ served312.void = false
      ∧ (recordAt bench 312).map (fun r => (r.state, r.location)) = some (.issued, some ⟨12, 17⟩)
      ∧ (({ served312 with void := true } : HandoffFrame).void = true) := by decide +kernel

/-- A state whose crib port sends from a source. -/
def cribSends (src : CribSource) : State :=
  { bench with cribEgress := { sending := some (src, []), pointer := .transit } }

theorem witness_CompletionFreesItsSource_ports :
    (cribSends .transit).cribEgress.sending = some (.transit, [])
      ∧ (cribSends .answer).cribEgress.sending = some (.answer, [])
      ∧ (cribSends .notice).cribEgress.sending = some (.notice, [])
      ∧ ({ bench with hallEgress := { sending := some (.transit, []), pointer := .transit } } : State).hallEgress.sending
        = some (.transit, []) := by decide +kernel

theorem witness_GrantFollowsThePointer :
    let n : State := { bench with notices := [⟨0, .sweepDone 0 0⟩] }
    bench.hallEgress.sending ≠ none ∧ (cribSends .answer).cribEgress.sending ≠ none
      ∧ bench.cribTransit = [] ∧ bench.answers = [] ∧ bench.notices = [] ∧ State.reset.handoff = []
      ∧ n.cribEgress.sending = none ∧ cribFront n .notice = some (noticeFrame ⟨0, .sweepDone 0 0⟩)
      ∧ cribFront n n.cribEgress.pointer = none ∧ cribFront n (nextCribSource n.cribEgress.pointer) = none
      ∧ .notice = nextCribSource (nextCribSource n.cribEgress.pointer) := by decide +kernel

theorem witness_PortsStayBusy :
    PortsBusy bench ∧ step (waiting .handoffTake) = .next (after (exec .handoffTake bench)) :=
  ⟨bench_legal.2.2.2.2.2.2.2.2.2.2.2.2.1, rfl⟩

theorem witness_NoticeEntersOrIsCounted :
    (List.replicate 23 (⟨0, .sweepDone 0 0⟩ : Notice)).length < 24
      ∧ 24 ≤ (List.replicate 24 (⟨0, .sweepDone 0 0⟩ : Notice)).length ∧ (254 : Nat) < 255 := by decide +kernel

theorem bench_taken : RequestTaken bench := ⟨rfl, by decide +kernel⟩

theorem bench_write_taken : WriteTaken bench := ⟨bench_taken, rfl⟩

/-- The numbers of examined slots and pockets that the reads of test_read_assemblies_wraps and test_read_pockets show
meet the conditions on them; here one of each, and the machines, banks and limits. -/
theorem witness_ReadsReplyAndChangeNothing :
    let found := fun examined : Nat => (List.range examined).filterMap fun i => occupant bench ⟨12, 1 + i⟩
    RequestTaken bench ∧ (127 ≤ 127 ∧ machineAt bench 12 = some machine12
      ∧ (machineAt bench 31).isSome = true ∧ (1 ≤ 240 ∧ 240 ≤ 240 ∧ 1 ≤ 16 ∧ 16 ≤ 16) ∧ 1023 ≤ 1023 ∧ 1 ≤ 4 ∧ 4 ≤ 4
      ∧ 1 + 18 ≤ 241 ∧ (∀ k < 18, (found k).length < 2) ∧ (found 18).length = 2) :=
  ⟨bench_taken, by decide +kernel⟩

/-- One past each end of each range of the reads (R20, R29, R59, R102, R129). -/
theorem witness_ReadsReplyAndChangeNothing_ranges :
    [.readType 1 128, .readCal 1 4 0, .readCal 1 0 2, .readProfile 1 0 0, .readProfile 1 32 0, .readProfile 1 12 2,
        .readPockets 1 0 1 1, .readPockets 1 32 1 1, .readPockets 1 12 0 1, .readPockets 1 12 241 1,
        .readPockets 1 12 1 0, .readPockets 1 12 1 17, .readAssemblies 1 1024 1, .readAssemblies 1 0 0,
        .readAssemblies 1 0 5].map (replyOf · bench)
      = List.replicate 15 (some (.badIndex, .none)) := by decide +kernel

theorem witness_ClearsAndProtection :
    RequestTaken bench ∧ RequestTaken { bench with protectionError := true }
      ∧ ({ bench with protectionError := true } : State).protectionError = true ∧ bench.protectionError = false
      ∧ protectionPasses bench = true ∧ Protection.locked ≠ bench.protection ∧ .open_ = bench.protection
      ∧ [2, 1, 0, 3].map (fun code => replyOf (.setProtection 1 code) bench)
        = [some (.ok, .protection .locked), some (.ok, .protection .keyed), some (.noChange, .protection .open_),
          some (.invalidTable, .protection .open_)] :=
  ⟨bench_taken, bench_taken, by decide +kernel⟩

theorem witness_ProtectionRefusesTableWrites :
    let s : State := { bench with protection := .keyed }
    tableWriting (.seedAudit 1 9) = true ∧ encodeRequest (.seedAudit 1 9) = some (0x51, 1, [0, 9])
      ∧ RequestTaken s ∧ protectionPasses s = false ∧ listedRequest (.identify 1) = true
      ∧ tableWriting (.identify 1) = false ∧ exec (.identify 1) s = .next (after (exec (.identify 1) s)) :=
  ⟨by decide +kernel, by decide +kernel, bench_taken, by decide +kernel, by decide +kernel, by decide +kernel, rfl⟩

theorem witness_RefusalsChangeNothing :
    RequestTaken bench ∧ listedRequest (.delete 1 312) = true
      ∧ encodeRequest (.delete 1 312) = some (0x43, 1, [1, 0x38])
      ∧ exec (.delete 1 312) bench = .next (after (exec (.delete 1 312) bench))
      ∧ (after (exec (.delete 1 312) bench)).answers = bench.answers ++ [.reply 0x43 1 .state 0 (.assembly 312)] :=
  ⟨bench_taken, by decide +kernel, by decide +kernel, rfl, by decide +kernel⟩

theorem witness_FullAnswerFifoDrops :
    let s : State := { bench with answers := List.replicate 8 (.reply 1 1 .ok 0 .identity) }
    s.resetPin = false ∧ 8 ≤ s.answers.length ∧ listedRequest (.identify 1) = true
      ∧ (after (exec (.unknownRequest 0x77 1 []) s)).mgmtDropped = 1 ∧ listedRequest (.unknownRequest 0x77 1 []) = false
      ∧ tally 65534 = 65535 ∧ tally 65535 = 65535 := by decide +kernel

theorem witness_LockedStaysLocked :
    ({ bench with protection := .locked } : State).protection = .locked ∧ Instr.setProtection 1 0 ≠ .powerOnReset
      ∧ exec .pinReset { bench with protection := .locked }
        = .next (after (exec .pinReset { bench with protection := .locked })) :=
  ⟨rfl, by decide +kernel, rfl⟩

theorem witness_GenerationTracksTableWrites :
    Instr.seedAudit 1 9 ≠ .powerOnReset ∧ Instr.seedAudit 1 9 ≠ .pinReset
      ∧ (∀ p f, Instr.seedAudit 1 9 ≠ .frameArrival p f)
      ∧ (∀ code rt body, Instr.seedAudit 1 9 = .unknownRequest code rt body → (Instr.seedAudit 1 9).wellFormed = true)
      ∧ exec (.seedAudit 1 9) bench = .next (after (exec (.seedAudit 1 9) bench))
      ∧ tableWriting (.seedAudit 1 9) = true ∧ tableWriting .handoffTake = false :=
  ⟨by simp, by simp, by simp, by simp, rfl, by decide +kernel⟩

theorem witness_UnreadableRequestsAreRefused :
    RequestTaken bench ∧ (Instr.unknownRequest 0x77 1 []).wellFormed = true
      ∧ (Instr.unknownRequest 0x11 1 []).wellFormed = true := ⟨bench_taken, by decide +kernel⟩

theorem witness_LineResetEndsWorkInProgress :
    RequestTaken bench ∧ ((headAt bench 1).slot = .armed capture46 ∧ capture46.assembly = 310
      ∧ (∀ k : Fin 4, armedOn bench k = some 310 → k = 1) ∧ recordAt bench 310 = some (tool .measuring (some 0xA0))
      ∧ ∀ h : Fin 4, armedOn bench h ≠ some 312) := ⟨bench_taken, by decide +kernel⟩

/-- What a contact, sample or release of the bench's first two heads meets; the window's limits belong to it. -/
theorem witness_gauge_frames :
    bench.resetPin = false ∧ (headAt bench 0).status = .ready ∧ (headAt bench 0).slot = .idle
      ∧ (activeCal (headAt bench 0)).refMin = 39980 ∧ (activeCal (headAt bench 0)).refMax = 40020
      ∧ (activeCal (headAt bench 1)).refMin = 39980 ∧ (activeCal (headAt bench 1)).refMax = 40020
      ∧ 0 < (gauge 0).reference ∧ 39980 ≤ (gauge 0).reference ∧ (gauge 0).reference ≤ 40020 ∧ (gauge 0).gating ≤ 1
      ∧ [0, 39979, 39980, 40020, 40021].map (fun n => monitorPasses bank46 { gauge 0 with reference := n })
        = [false, false, true, true, false]
      ∧ monitorPasses { bank46 with refMin := 0 } { gauge 0 with reference := 0 } = false
      ∧ (headAt bench 1).status = .ready ∧ (headAt bench 1).slot = .armed capture46
      ∧ recordAt bench 310 = some (tool .measuring (some 0xA0)) ∧ (headAt bench 1).pendingCal = none := by
  decide +kernel

theorem witness_ContactArmsOrIsRefused :
    (headAt bench 3).status = .uncalibrated ∧ (headAt bench 2).status = .fault ⟨38512, .sample, .bankA⟩
      ∧ (gauge 0).axis = 0 ∧ ({ gauge 0 with axis := 1 } : GaugeFrame).axis = 1
      ∧ tableGet bench.tagMap (0xFF : Tag).toNat = none
      ∧ tableGet bench.tagMap (0xA1 : Tag).toNat = some 311 ∧ (recordAt bench 311).isSome = true
      ∧ isHeld bench 311 = false ∧ isHeld { bench with holds := bench.holds.set 0 ⟨true, 0, 10, false⟩ } 311 = true
      ∧ (recordAt bench 310).map (·.state) = some .measuring
      ∧ armedOn bench 1 = some 310 ∧ (∀ j : Fin 4, armedOn bench j = some 310 → j = 1)
      ∧ (recordAt bench 312).map (·.state) = some .issued ∧ (recordAt bench 311).map (·.state) = some .preset
      ∧ (typeAt bench 45).axes = .length ∧ ¬(Axis.radius = .length ∨ (typeAt bench 45).axes = .lengthRadius)
      ∧ 2 ≤ (activeCal (headAt bench 0)).depth
      ∧ 1 < ({ gauge 0 with axis := 2 } : GaugeFrame).axis ∧ 1 < ({ gauge 0 with gating := 2 } : GaugeFrame).gating
      ∧ (headAt (benchWith 0 { readyHead with slot := .latched }) 0).slot = .latched
      ∧ (headAt bench 1).slot = .armed capture46 ∧ (headAt bench 1).pendingCal = none
      ∧ recordAt bench capture46.assembly = some (tool .measuring (some 0xA0))
      ∧ (headAt held 1).slot = .armed capture46 ∧ (headAt held 1).pendingCal = some .bankB
      ∧ recordAt held capture46.assembly = some (tool .measuring (some 0xA0)) := by decide +kernel

/-- A recontact (R88): the capture of 310 ends with RECONTACT, the pending switch completes, and 311 is captured. -/
theorem test_recontact :
    let s := after (exec (.contact 1 (gauge 0) 0xA1) held)
    noticeBodies s
        = [.captureAborted 1 310 .length .recontact .preset 3 3, .calSwitchDone 1 .bankB .bankA (some 310) .ready]
      ∧ (recordAt s 310).map (·.state) = some .preset ∧ (recordAt s 311).map (·.state) = some .measuring
      ∧ (headAt s 1).active = .bankB ∧ armedOn s 1 = some 311 := by decide +kernel

/-- The fourth reading of the worked case settles it: four entries within the band. One that is DISCARDED, one that
leaves three entries, and one that leaves the band by one do not. -/
theorem witness_SampleEntersOrSettles :
    let reading := readingOf bank46 (gauge 1203313)
    let kept := (capture46.history ++ reading.toList).drop ((capture46.history ++ reading.toList).length - 4)
    let apart := fun history : List Sample => decide (∀ a ∈ history, ∀ b ∈ history, a.value - b.value ≤ 20)
    recordAt bench capture46.assembly = some (tool .measuring (some 0xA0))
      ∧ calBankOf (headAt bench 1) capture46.bank = bank46 ∧ typeAt bench 45 = { type45 with inUse := 5 } ∧ 1 ≤ 4
      ∧ reading ≠ none ∧ kept.length = 4 ∧ apart kept = true ∧ capture46.frames + 1 < 64
      ∧ readingOf bank46 { gauge 0 with overflow := true } = none ∧ (capture46.history.drop 1 ++ reading.toList).length ≠ 4
      ∧ apart [⟨0, false⟩, ⟨-20, false⟩] = true ∧ apart [⟨0, false⟩, ⟨-21, false⟩] = false
      ∧ (headAt bench 2).status ≠ .ready ∧ (headAt bench 3).status ≠ .ready
      ∧ 1 < ({ gauge 0 with gating := 2 } : GaugeFrame).gating ∧ (headAt bench 0).slot = .idle
      ∧ (headAt (benchWith 0 { readyHead with slot := .latched }) 0).slot = .latched := by
  decide +kernel

/-- The reading of a frame (R48): DISCARDED with the overflow mark, and where its gating's divisor is 0 but not where
the other count is. -/
theorem witness_SampleEntersOrSettles_readings :
    [{ gauge 0 with overflow := true }, { gauge 0 with reference := 0 }, { gauge 0 with gating := 1, sensor := 0 }].map
        (readingOf bank46) = [none, none, none]
      ∧ (readingOf bank46 { gauge 0 with sensor := 0 }).isSome = true
      ∧ (readingOf bank46 { gauge 0 with gating := 1, reference := 0 }).isSome = true := by decide +kernel

theorem witness_ReleaseEndsTheTouch :
    (headAt (benchWith 0 { readyHead with slot := .latched }) 0).slot = .latched
      ∧ (headAt (benchWith 0 { readyHead with slot := .latched }) 0).status = .ready
      ∧ (headAt bench 2).status ≠ .ready ∧ (headAt bench 3).status ≠ .ready := by decide +kernel

theorem witness_SixtyFourthReadingTimesOut :
    let c := { capture46 with history := [], frames := 63 }
    let reading := readingOf bank46 (gauge 0)
    (headAt late 1).slot = .armed c ∧ (headAt late 1).status = .ready ∧ (headAt late 1).pendingCal = none
      ∧ recordAt late 310 = some (tool .measuring (some 0xA0)) ∧ (calBankOf (headAt late 1) c.bank).depth = 4
      ∧ (c.history ++ reading.toList).length ≠ 4 ∧ c.frames + 1 = 64 := by
  decide +kernel

theorem witness_CaptureEndCompletesSwitch :
    (headAt held 1).status = .ready ∧ (headAt held 1).slot = .armed capture46
      ∧ (headAt held 1).pendingCal = some .bankB ∧ activeCal (headAt held 1) = bank46
      ∧ endsHeldCapture held 1 .contact (gauge 0) = true
      ∧ endsHeldCapture held 1 .sample (gauge 1203313) = true
      ∧ endsHeldCapture held 1 .release (gauge 0) = true
      ∧ recordAt held capture46.assembly = some (tool .measuring (some 0xA0)) ∧ (gauge 0).gating ≤ 1
      ∧ (let reading := readingOf bank46 (gauge 1203313)
         let kept := capture46.history ++ reading.toList
         reading ≠ none ∧ kept.length = 4 ∧ ∀ a ∈ kept, ∀ b ∈ kept, a.value - b.value ≤ 20)
      ∧ (headAt lateHeld 1).pendingCal = some .bankB
      ∧ (let reading := readingOf bank46 (gauge 0)
         ([] ++ reading.toList).length ≠ 4 ∧ 64 ≤ 63 + 1) := by decide +kernel

/-- A pending switch at a settle and at a timeout (R65): the capture's notice, then CAL_SWITCH_DONE. -/
theorem test_switch_completes_at_ends :
    let settled := after (exec (.sample 1 (gauge 1203313)) held)
    let timedOut := after (exec (.settleTimeout 1 (gauge 0)) lateHeld)
    noticeBodies settled
        = [.captureDone 1 310 .length 852243 852243 false .bankA 4 .pass .preset,
          .calSwitchDone 1 .bankB .bankA (some 310) .ready]
      ∧ noticeBodies timedOut
        = [.captureAborted 1 310 .length .settleTimeout .preset 64 1,
          .calSwitchDone 1 .bankB .bankA (some 310) .ready]
      ∧ (headAt settled 1).active = .bankB ∧ (headAt settled 1).slot = .latched
      ∧ (headAt timedOut 1).active = .bankB ∧ (headAt timedOut 1).slot = .latched := by decide +kernel

theorem witness_ReferenceFaultStopsHead :
    activeCal (headAt bench 0) = bank46 ∧ activeCal (headAt bench 1) = bank46
      ∧ ¬(0 < lowGauge.reference ∧ bank46.refMin ≤ lowGauge.reference ∧ lowGauge.reference ≤ bank46.refMax)
      ∧ ¬(0 < 0 ∧ bank46.refMin ≤ 0 ∧ 0 ≤ bank46.refMax) ∧ ¬(40021 ≤ bank46.refMax)
      ∧ SampleKind.sample ≠ .contact := by
  decide +kernel

theorem witness_GaugeFramesTouchOneHead :
    exec (.contact 1 (gauge 0) 0xA1) bench = .next (after (exec (.contact 1 (gauge 0) 0xA1) bench))
      ∧ (2 : Fin 4) ≠ 1 ∧ armedOn bench 1 ≠ some 312 ∧ tableGet bench.tagMap (0xA1 : Tag).toNat ≠ some 312
      ∧ recordAt bench 310 = some (tool .measuring (some 0xA0)) := ⟨rfl, by decide +kernel⟩

theorem witness_HeadsStayLegal :
    HeadsLegal bench ∧ step (waiting (.switchCal 1 1 1)) = .next (after (exec (.switchCal 1 1 1) bench)) :=
  ⟨bench_legal.2.2.2.1, rfl⟩

theorem witness_CapturesStayMatched :
    TablesCanonical bench ∧ CapturesMatch bench
      ∧ step (waiting (.contact 0 (gauge 0) 0xA1)) = .next (after (exec (.contact 0 (gauge 0) 0xA1) bench)) :=
  ⟨bench_legal.2.1, bench_legal.2.2.2.2.1, rfl⟩

theorem witness_RoundingIsHalfOut : 2 * ((-5 : Int) - roundHalfOut (-5) 2 * (2 : Nat)).natAbs = 2 := by
  decide +kernel

theorem witness_GapInterpolates :
    (bank46.breakpoints.Pairwise fun p q => p.q < q.q) ∧ (65535 : Int) < 65536 ∧ (98304 : Int) < 98305
      ∧ bank46.breakpoints = [] ++ ⟨65536, -5000⟩ :: ⟨98304, 5000⟩ :: [] ∧ (65536 : Int) ≤ 98303
      ∧ (98303 : Int) < 98304 := by decide +kernel

theorem witness_LengthStages :
    40000 * 65536 / 31220 ≤ 1048575 ∧ 1048575 < 40000 * 65536 / 2000 := by decide +kernel

/-- Each refusal of the calibration writes, at the first number past each range and in each order of the checks. -/
theorem witness_CalibrationWritesTakeEffect_refusals :
    let body : CalBody := ⟨2, bank46.breakpoints, 1, 2, 250000, 30, 39980, 40020, 4⟩
    let same : CalBody :=
      ⟨2, bank46.breakpoints, bank46.scaleNum, bank46.scaleDen, bank46.zero, bank46.alpha, bank46.refMin,
        bank46.refMax, bank46.depth⟩
    let invalid : Head := { readyHead with bankB := { bank46 with depth := 3 } }
    [.writeCal 1 4 0 body, .writeCal 1 0 2 body, .switchCal 1 4 0, .switchCal 1 0 2, .cancelCalSwitch 1 4,
        .headRestore 1 4].map (replyOf · bench)
      = List.replicate 6 (some (.badIndex, .none))
      ∧ [{ body with count := 3 }, { body with depth := 9 }, { body with zero := 1000000000 },
          { body with breakpoints := [⟨1048576, 0⟩, ⟨0, 20001⟩] }].map (fun b => replyOf (.writeCal 1 0 0 b) bench)
        = List.replicate 4 (some (.invalidTable, .none))
      ∧ calReason bank46 = none ∧ (headAt bench 0).active = .bankA
      ∧ replyOf (.writeCal 1 0 0 { body with depth := 3 }) bench = some (.activeBank, .none)
      ∧ (headAt held 1).pendingCal = some .bankB ∧ replyOf (.writeCal 1 1 1 body) held = some (.busy, .none)
      ∧ replyOf (.writeCal 1 0 1 same) bench = some (.noChange, .none)
      ∧ calReason invalid.bankB = some .settleDepth
      ∧ replyOf (.switchCal 1 0 1) (benchWith 0 invalid) = some (.invalidTable, .calInvalid .settleDepth)
      ∧ (headAt bench 0).pendingCal = none ∧ replyOf (.cancelCalSwitch 1 0) bench = some (.state, .none)
      ∧ (headAt bench 0).status = .ready ∧ replyOf (.headRestore 1 0) bench = some (.state, .none) := by decide +kernel

theorem witness_CalibrationWritesTakeEffect :
    let body : CalBody := ⟨2, bank46.breakpoints, 1, 2, 250000, 45, 39980, 40020, 4⟩
    WriteTaken bench ∧ WriteTaken held ∧ (body.count ≤ 16 ∧ body.breakpoints.length = body.count
      ∧ (∀ p ∈ body.breakpoints, 0 ≤ p.q ∧ p.q ≤ 1048575 ∧ -20000 ≤ p.g ∧ p.g ≤ 20000)
      ∧ -999999999 ≤ body.zero ∧ body.zero ≤ 999999999 ∧ body.depth ≤ 8
      ∧ (headAt bench 1).active = .bankA ∧ (headAt bench 1).pendingCal = none
      ∧ ({ bank46 with alpha := 30 } : CalBank) ≠ calBankOf (headAt bench 1) .bankB
      ∧ calReason (headAt bench 0).bankB = none ∧ (headAt bench 0).slot = .idle
      ∧ (headAt bench 1).slot = .armed capture46 ∧ (headAt held 1).pendingCal = some .bankB
      ∧ (headAt held 1).active = .bankA ∧ calReason (headAt held 1).bankB = none
      ∧ (headAt bench 2).status = .fault ⟨38512, .sample, .bankA⟩) :=
  ⟨bench_write_taken, bench_write_taken, by decide +kernel⟩

/-- The bench with an IDLE sweep. -/
def idleSweep : State := { bench with sweep := Sweep.reset }

/-- Each refusal of WRITE_TYPE: a RUNNING and a SUSPENDED sweep before the body is looked at, each field one past its
range, an equal body, and a type in use undefined. -/
theorem witness_TypeWriteMarksAssemblies_refusals :
    let b := typeBody type45.upperL
    let suspended : State := { bench with sweep := { bench.sweep with state := .suspended } }
    replyOf (.writeType 1 128 b) idleSweep = some (.badIndex, .typeNumber 128)
      ∧ [bench, suspended].map (replyOf (.writeType 1 45 { b with defined := 2 }))
        = List.replicate 2 (some (.busy, .typeNumber 45))
      ∧ [{ b with defined := 2 }, { b with axes := 2 }, { b with nominalL := 1000000000 }, { b with lowerL := 1 },
          { b with upperR := 1000001 }, { b with band := 0 }, { b with band := 1001 },
          { b with lengthWearLimit := -1 }].map (fun x => replyOf (.writeType 1 45 x) idleSweep)
        = List.replicate 8 (some (.invalidTable, .typeNumber 45))
      ∧ replyOf (.writeType 1 45 b) idleSweep = some (.noChange, .typeRecord 45 (typeAt idleSweep 45))
      ∧ 0 < (typeAt idleSweep 45).inUse
      ∧ replyOf (.writeType 1 45 { b with defined := 0 }) idleSweep = some (.state, .typeNumber 45) := by decide +kernel

theorem witness_TypeWriteMarksAssemblies :
    let b := typeBody 200
    let off : TypeBody := { b with defined := 0, axes := 1, band := 1, lengthWearLimit := 999999999 }
    WriteTaken idleSweep ∧ (45 ≤ 127 ∧ 127 ≤ 127 ∧ idleSweep.sweep.state = .idle
      ∧ b.defined = 1 ∧ b.axes = 0 ∧ off.defined = 0 ∧ off.axes = 1
      ∧ (∀ x ∈ [b, off], (∀ v ∈ [x.nominalL, x.nominalR], -999999999 ≤ v ∧ v ≤ 999999999)
        ∧ (∀ v ∈ [x.lowerL, x.lowerR], -1000000 ≤ v ∧ v ≤ 0) ∧ (∀ v ∈ [x.upperL, x.upperR], 0 ≤ v ∧ v ≤ 1000000)
        ∧ 1 ≤ x.band ∧ x.band ≤ 1000 ∧ ∀ v ∈ [x.lengthWearLimit, x.radiusWearLimit], 0 ≤ v ∧ v ≤ 999999999)
      ∧ ({ type45 with inUse := 5, upperL := 200 } : TypeRecord) ≠ typeAt idleSweep 45
      ∧ (200 : Int) ≠ (typeAt idleSweep 45).upperL ∧ (typeAt idleSweep 45).inUse = 5 ∧ (typeAt idleSweep 127).inUse = 0
      ∧ isToleranceWrite (typeAt idleSweep 45) { type45 with inUse := 5, band := 21 } = false) :=
  ⟨bench_write_taken, by decide +kernel⟩

/-- No record at or above 312 carries a mark, and below 311 none does. -/
theorem witness_SweepStepsInOrder :
    TablesCanonical bench ∧ (bench.sweep.state = .running ∧ bench.sweep.cursor ≤ 311
      ∧ (recordAt bench 311).map (·.marked) = some true)
      ∧ (∀ m r, recordAt bench m = some r → m ≠ 311 → r.marked = false) ∧ RequestTaken bench
      ∧ ({ bench with sweep := { bench.sweep with state := .suspended } } : State).sweep.state = .suspended :=
  ⟨bench_legal.2.1, by decide +kernel, fun m r h hm => by
    have hall : ∀ e ∈ bench.assemblies, e.1 ≠ 311 → e.2.marked = false := by decide +kernel
    exact hall (m, r) (mem_of_tableGet h) hm, bench_taken, rfl⟩

/-- A record for each line of the evaluation (R9, R10): no entry, one of two, both STALE from REMEASURE, the clamp
mark before the tolerance, each axis out of tolerance at one step past its limit, and both at the limits. -/
theorem witness_SweepStepsInOrder_evaluation :
    let t : TypeRecord :=
      { TypeRecord.reset with axes := .lengthRadius, nominalL := 1000, lowerL := -5, upperL := 5, nominalR := 200 }
    let entry := fun (value : Int) (fresh clamped : Bool) => some (⟨value, fresh, clamped, 0, .bankA⟩ : Entry)
    let r := fun (l x : Option Entry) => { tool .partly none with length := l, radius := x }
    [r none none, r (entry 1000 true false) none, r (entry 1005 true true) (entry 201 true false),
        r (entry 1006 true false) (entry 201 true false), r (entry 1005 true false) (entry 201 true false),
        r (entry 995 true false) (entry 200 true false)].map (fun x => (verdictOf t x, outcomeOf t x .partly))
      = [(.incomplete, .built), (.incomplete, .partly), (.clamped, .rejected), (.failLength, .rejected),
        (.failRadius, .rejected), (.pass, .preset)]
      ∧ outcomeOf t (r (entry 1000 false false) none) .remeasure = .remeasure
      ∧ outcomeOf t (r (entry 1000 false false) (entry 200 true false)) .remeasure = .partly := by decide +kernel

/-- A record in each state that an evaluation tells apart (R11), with the capture slot that names 310. -/
theorem witness_SweepStepsInOrder_states :
    let narrow : State := { bench with types := bench.types.set 45 { type45 with upperL := 200 } }
    [310, 311, 312, 313, 314].map (fun n => (recordAt bench n).map (·.state))
        = [some .measuring, some .preset, some .issued, some .withdrawn, some .retired]
      ∧ (recordAt bench 312).map (fun r => outcomeOf (typeAt bench 45) r r.state) = some .preset
      ∧ (recordAt narrow 312).map (fun r => outcomeOf (typeAt narrow 45) r r.state) = some .rejected
      ∧ (headAt bench 1).slot = .armed capture46 ∧ capture46.assembly = 310 ∧ armedOn bench 0 ≠ some 310 := by
  decide +kernel

/-- The first two checks of R12 for the seven requests, at 1023 and 1024 and under a window that covers all. -/
theorem witness_CreateAndDeleteTakeEffect_common :
    let s : State := { bench with holds := bench.holds.set 0 ⟨true, 0, 10, false⟩ }
    let requests := fun n : Nat =>
      [.create 1 n 45 none, .restore 1 n (restoreBody 0 0 none none), .changeType 1 n 45, .bindTag 1 n 0xFF,
        .unbindTag 1 n, .rebuild 1 n, .delete 1 n]
    isHeld s 1023 = true ∧ isHeld s 311 = true
      ∧ (requests 1024).map (replyOf · s) = List.replicate 7 (some (.badIndex, .assembly 1024))
      ∧ (requests 1023).map (replyOf · s) = List.replicate 7 (some (.protected_, .assembly 1023))
      ∧ (requests 311).all (fun i => (after (exec i s)).protectionError) = true := by decide +kernel

/-- The refusals of CREATE, DELETE and the edits past these checks, each with the fact it follows from. -/
theorem witness_CreateAndDeleteTakeEffect_refusals :
    (recordAt bench 311).isSome = true ∧ recordAt bench 1023 = none ∧ (typeAt bench 44).defined = false
      ∧ [.create 1 311 45 none, .create 1 1023 128 none, .create 1 1023 44 none, .create 1 1023 45 (some 0xA1),
          .delete 1 1023, .delete 1 310, .delete 1 312, .delete 1 313].map (replyOf · bench)
        = [some (.state, .assembly 311), some (.badIndex, .assembly 1023), some (.badIndex, .assembly 1023),
          some (.tagInUse, .assembly 1023), some (.state, .assembly 1023), some (.state, .assembly 310),
          some (.state, .assembly 312), some (.state, .assembly 313)] := by decide +kernel

theorem witness_EditsTakeEffect_refusals :
    let refused := fun (s : State) (i : Instr) => (replyOf i s, (after (exec i s)).sweep.otherwise)
    [.changeType 1 1023 45, .bindTag 1 310 0xFF, .unbindTag 1 312, .rebuild 1 313].map (refused bench)
        = [(some (.state, .assembly 1023), 0), (some (.state, .assembly 310), 0), (some (.state, .assembly 312), 0),
          (some (.state, .assembly 313), 0)]
      ∧ (recordAt bench 311).map (fun r => (r.state, r.tag, r.marked)) = some (.preset, some 0xA1, true)
      ∧ [.changeType 1 311 44, .changeType 1 311 128, .bindTag 1 311 0xA2, .bindTag 1 311 0xFF,
          .rebuild 1 311].map (refused bench)
        = [(some (.badIndex, .assembly 311), 0), (some (.badIndex, .assembly 311), 0),
          (some (.tagInUse, .assembly 311), 0), (some (.state, .assembly 311), 0),
          (some (.state, .assembly 311), 0)] := by decide +kernel

theorem witness_CreateAndDeleteTakeEffect :
    WriteTaken bench ∧ (1023 ≤ 1023 ∧ isHeld bench 1023 = false ∧ recordAt bench 1023 = none
      ∧ 45 ≤ 127 ∧ (typeAt bench 45).defined = true ∧ tableGet bench.tagMap (0xFF : Tag).toNat = none ∧ isHeld bench 311 = false
      ∧ (recordAt bench 311).map (·.state) = some .preset) := ⟨bench_write_taken, by decide +kernel⟩

/-- The bodies of test_restore_bodies describe records; here what their slot, type, tag and place meet, with a slot, a
type, a tag and a place that do not. -/
theorem witness_RestoreStoresRecord :
    WriteTaken bench ∧ (isHeld bench 311 = false ∧ isHeld bench 1023 = false ∧ 1023 ≤ 1023
      ∧ recordAt bench 1023 = none ∧ (recordAt bench 311).map (·.state) = some .preset
      ∧ recordAt bench 314 = some (tool .retired none)
      ∧ (recordAt bench 312).map (·.state) = some .issued ∧ isHeld bench 312 = false
      ∧ (typeAt bench 45).defined = true ∧ (typeAt bench 127).defined = false
      ∧ tableGet bench.tagMap (0xA1 : Tag).toNat = some 311 ∧ tableGet bench.tagMap (0xFF : Tag).toNat = none
      ∧ tableGet bench.tagMap (0xA2 : Tag).toNat = some 312
      ∧ machineAt bench 12 = some machine12 ∧ machine12.defined = true ∧ machine12.magazine = 40
      ∧ occupant bench ⟨12, 40⟩ = none ∧ occupant bench ⟨12, 17⟩ = some 312 ∧ machineAt bench 32 = none
      ∧ (machineAt bench 31).map (·.defined) = some false) :=
  ⟨bench_write_taken, by decide +kernel⟩

theorem witness_EditsTakeEffect :
    let s : State := { bench with types := bench.types.set 44 type45 }
    WriteTaken s ∧ (isHeld s 311 = false ∧ isHeld s 314 = false
      ∧ (recordAt s 311).map (fun r => (r.state, r.tag, r.marked)) = some (.preset, some 0xA1, true)
      ∧ (recordAt s 314).map (fun r => (r.state, r.tag, r.marked)) = some (.retired, none, false)
      ∧ (recordAt (reviewOnDemand 311 s) 311).isSome = true ∧ (recordAt (reviewOnDemand 314 s) 314).isSome = true
      ∧ 44 ≤ 127 ∧ (typeAt s 44).defined = true ∧ (45 : Nat) ≠ 44 ∧ tableGet s.tagMap (0xFF : Tag).toNat = none
      ∧ (typeAt s 45).defined = true ∧ tableGet s.tagMap (0xA1 : Tag).toNat = some 311) :=
  ⟨bench_write_taken, by decide +kernel⟩

/-- An edit that changes nothing is NO_CHANGE, and its review on demand stands: the mark of 311 is gone (R16, R37). -/
theorem test_edit_no_change :
    let s := after (exec (.changeType 1 311 45) bench)
    lastAnswer s = some (.reply 0x42 1 .noChange 0 (.assemblyState 311 .preset)) ∧ s.generation = 0
      ∧ (recordAt s 311).map (·.marked) = some false ∧ s.sweep.otherwise = 1 := by decide +kernel

theorem witness_HoldWindowsAreStored :
    WriteTaken bench ∧ (3 < 4 ∧ 3 ≤ 3 ∧ ¬(2 ≤ 1)
      ∧ (1 ≤ 1 ∧ 1 ≤ 1 ∧ 1023 ≤ 1023 ∧ 10 ≤ 10) ∧ bench.holds[3]? ≠ some ⟨true, 0, 10, true⟩
      ∧ bench.holds[3]? = some ⟨false, 0, 0, false⟩ ∧ covers ⟨true, 0, 10, false⟩ 1023 = true)
      ∧ RequestTaken { bench with protection := .locked }
      ∧ protectionPasses { bench with protection := .locked } = false :=
  ⟨bench_write_taken, by decide +kernel, bench_taken, by decide +kernel⟩

theorem witness_StoresAndCountsStayInRange :
    step (waiting (.seedAudit 1 0)) = .next (after (exec (.seedAudit 1 0) bench)) ∧ TablesCanonical bench
      ∧ CountsInRange bench ∧ StoresLegal bench :=
  ⟨rfl, bench_legal.2.1, bench_legal.1, bench_legal.2.2.1⟩

theorem witness_TagsTypesAndMarksStayCounted :
    TablesCanonical bench ∧ step (waiting (.delete 1 311)) = .next (after (exec (.delete 1 311) bench))
      ∧ TagsMatch bench ∧ TypesCounted bench ∧ MarksCounted bench :=
  ⟨bench_legal.2.1, rfl, bench_legal.2.2.2.2.2.1, bench_legal.2.2.2.2.2.2.2.2.1, bench_legal.2.2.2.2.2.2.2.2.2.1⟩

theorem witness_PlacesStayMatched :
    TablesCanonical bench ∧ CapturesMatch bench ∧ StoresLegal bench ∧ PlacesMatch bench ∧ MagazinesHold bench
      ∧ step (waiting (.issue 0 0xA1 12 40)) = .next (after (exec (.issue 0 0xA1 12 40) bench)) :=
  ⟨bench_legal.2.1, bench_legal.2.2.2.2.1, bench_legal.2.2.1, bench_legal.2.2.2.2.2.2.1,
    bench_legal.2.2.2.2.2.2.2.1, rfl⟩

theorem witness_PresetStaysSound :
    TablesCanonical bench ∧ CapturesMatch bench ∧ PresetSound bench
      ∧ step (waiting .sweepStep) = .next (after (exec .sweepStep bench)) :=
  ⟨bench_legal.2.1, bench_legal.2.2.2.2.1, bench_legal.2.2.2.2.2.2.2.2.2.2.2.2.2, rfl⟩

theorem witness_HeldAssembliesStayPut :
    let s : State := { bench with holds := bench.holds.set 0 ⟨true, 0, 10, false⟩ }
    CapturesMatch s ∧ step { s with pending := [.sweepStep] } = .next (after (exec .sweepStep s))
      ∧ isHeld { s with pending := [.sweepStep] } 312 = true
      ∧ (recordAt (after (exec .sweepStep s)) 312).map (·.state) = some .issued :=
  ⟨bench_legal.2.2.2.2.1, rfl, by decide +kernel, by decide +kernel⟩

theorem witness_IssueIsGranted :
    RequestTaken bench ∧ (tableGet bench.tagMap (0xA1 : Tag).toNat = some 311 ∧ isHeld bench 311 = false
      ∧ (recordAt bench 311).isSome = true
      ∧ (recordAt (reviewOnDemand 311 bench) 311).map (fun r => (r.state, r.lifeUsed)) = some (.preset, 0)
      ∧ (typeAt bench 45).lifeLimit = 240 ∧ machineAt bench 12 = some machine12 ∧ machine12.defined = true
      ∧ 40 ≤ machine12.magazine ∧ occupant bench ⟨12, 40⟩ = none) := ⟨bench_taken, by decide +kernel⟩

theorem witness_TagFramesAreRefused :
    let u := reviewOnDemand 311 bench
    let spent : State := putAssembly 311 { tool .preset (some 0xA1) with lifeUsed := 240 } bench
    RequestTaken bench ∧ (tableGet bench.tagMap (0xFF : Tag).toNat = none
      ∧ tableGet bench.tagMap (0xA2 : Tag).toNat = some 312
      ∧ (recordAt (reviewOnDemand 312 bench) 312).map (·.state) = some .issued
      ∧ (recordAt bench 311).map (fun r => outOfCrib r.state) = some false
      ∧ isHeld { bench with holds := bench.holds.set 0 ⟨true, 0, 10, false⟩ } 311 = true ∧ isHeld bench 311 = false
      ∧ (recordAt u 311).map (fun r => (r.state, r.lifeUsed)) = some (.preset, 0)
      ∧ (recordAt (reviewOnDemand 311 spent) 311).map (fun r => (r.state, r.lifeUsed)) = some (.preset, 240)
      ∧ machineDefined bench 32 = false ∧ machineAt bench 12 = some machine12 ∧ machine12.defined = true
      ∧ machine12.magazine < 41 ∧ occupant bench ⟨12, 17⟩ = some 312) := ⟨bench_taken, by decide +kernel⟩

theorem witness_ReturnsAreAccepted_refusals :
    [.forceReturn 1 1024, .forceReturn 1 1023, .forceReturn 1 311, .seedAudit 1 32768].map (replyOf · bench)
      = [some (.badIndex, .none), some (.state, .none), some (.state, .none), some (.invalidTable, .none)] := by
  decide +kernel

theorem witness_ReturnsAreAccepted :
    recordAt bench 312 = some { tool .issued (some 0xA2) with location := some ⟨12, 17⟩ }
      ∧ outOfCrib .issued = true ∧ RequestTaken bench ∧ tableGet bench.tagMap (0xA2 : Tag).toNat = some 312
      ∧ WriteTaken bench ∧ WriteTaken State.reset ∧ 312 ≤ 1023 ∧ 32767 ≤ 32767
      ∧ BitVec.ofNat 15 32767 ≠ State.reset.audit ∧ BitVec.ofNat 15 1 = State.reset.audit :=
  ⟨by decide +kernel, rfl, bench_taken, by decide +kernel, bench_write_taken, ⟨⟨rfl, by decide +kernel⟩, rfl⟩,
    by decide +kernel⟩

theorem witness_AuditRunsThroughAllValues : (1 : BitVec 15) ≠ 0 ∧ (32767 : BitVec 15) ≠ 0 := by decide +kernel

theorem witness_HandoffRequestFoldsOrJoins :
    let full : State := { bench with waitList := (List.range 32).map fun k => ⟨1, k + 1, false⟩ }
    bench.resetPin = false ∧ machineDefined bench 12 = true
      ∧ (∃ e ∈ bench.waitList, e.machine = 12 ∧ e.pocket = 18)
      ∧ ¬(∃ e ∈ bench.waitList, e.machine = 12 ∧ e.pocket = 240) ∧ bench.waitList.length < 32
      ∧ ¬(∃ e ∈ full.waitList, e.machine = 12 ∧ e.pocket = 1) ∧ 32 ≤ full.waitList.length := by decide +kernel

/-- The bench with a pending switch of machine 12 whose only marked entry waits. -/
def draining : State := after (exec (.switchProfile 1 12 1) bench)

/-- The bench with one waiting entry of machine 12, for an empty pocket, for 312 in service or for 313 withdrawn. -/
def waitsFor (pocket : Nat) : State := { bench with waitList := [⟨12, pocket, false⟩] }

/-- The bench with a pending switch of machine 12 whose marked entry stands behind an unmarked one, which is held. -/
def behindHeld : State := { draining with waitList := [⟨12, 40, false⟩, ⟨12, 18, true⟩] }

theorem witness_TakeServesOldestEligible :
    bench.handoff.length < 4 ∧ bench.waitList = [] ++ ⟨12, 18, false⟩ :: []
      ∧ machineAt bench 12 = some machine12 ∧ machine12.paused = false ∧ machine12.switch = none
      ∧ behindHeld.waitList = [⟨12, 40, false⟩] ++ ⟨12, 18, true⟩ :: []
      ∧ machineAt behindHeld 12 = some { machine12 with switch := some ⟨.bankB, 1, 1⟩ }
      ∧ 2 ≤ ({ target := .bankB, requested := 2, marked := 2 } : ProfileSwitch).marked
      ∧ profile88.slots ≠ [] ∧ (∀ y ∈ profile88.slots,
        y.source ≤ 9 ∧ 1 ≤ y.width ∧ y.width ≤ 9 ∧ (y.source ≤ 5 → 1 ≤ y.unit ∧ y.unit ≤ 4))
      ∧ occupant bench ⟨12, 40⟩ = none ∧ occupant bench ⟨12, 17⟩ = some 312
      ∧ (recordAt bench 312).map (·.state) = some .issued ∧ (recordAt bench 313).map (·.state) = some .withdrawn := by
  decide +kernel

/-- The four statuses of R144 in their order: EMPTY also where the bank is invalid, NO_PROFILE only where it is, LOCKED
for a WITHDRAWN assembly, SERVED; and the held entry before stays in the list (R141). -/
theorem test_take_statuses :
    let sent := fun s : State => ((after (exec .handoffTake s)).handoff.getLast?).map fun f =>
      match f.content with
      | .empty => (0, 0, 0)
      | .noProfile => (1, 0, 0)
      | .locked n _ slots => (2, n, slots.length)
      | .served n _ slots => (3, n, slots.length)
    let void := fun s : State => { s with machines := s.machines.set 11 { machine12 with bankA := ⟨[], 0⟩ } }
    [sent (waitsFor 40), sent (void (waitsFor 40)), sent (void (waitsFor 17)), sent (waitsFor 18), sent (waitsFor 17)]
      = [some (0, 0, 0), some (0, 0, 0), some (1, 0, 0), some (2, 313, 3), some (3, 312, 3)]
      ∧ (after (exec .handoffTake behindHeld)).waitList = [⟨12, 40, false⟩] := by decide +kernel

/-- An absent source (no length entry, a life limit of 0) and the greatest length with a gauge-line offset beyond it. -/
theorem witness_SlotValuesFitTheirWidth :
    slotReason 1 ⟨6, 0, 2, false, false⟩ = none
      ∧ (formatSlot 0 type45 1 { tool .preset none with length := none } ⟨0, 0, 6, false, false⟩).absent = true
      ∧ (formatSlot 0 { type45 with lifeLimit := 0 } 1 (tool .preset none) ⟨6, 0, 6, false, false⟩).absent = true
      ∧ formatSlot 1 type45 1 { tool .preset none with length := some ⟨999999999, true, false, 1, .bankA⟩ }
          ⟨0, 1, 9, true, false⟩ = ⟨9, true, false, false, -100000000⟩ := by decide +kernel

theorem witness_UsageUpdatesOrWithdraws :
    bench.resetPin = false ∧ machineDefined bench 12 = true
      ∧ atReportedPocket bench 12 18 ≠ some 312 ∧ atReportedPocket bench 12 17 = some 312
      ∧ recordAt bench 312 = some { tool .issued (some 0xA2) with location := some ⟨12, 17⟩ }
      ∧ withdrawalReason type45 false { tool .issued none with lifeUsed := 239 } = none
      ∧ withdrawalReason type45 false { tool .issued none with lifeUsed := 240 } = some .life
      ∧ (tool .issued none).state ≠ .withdrawn ∧ (recordAt bench 313).map (·.state) = some .withdrawn
      ∧ ¬(1 ≤ 0 ∧ 0 ≤ 240) ∧ ¬(1 ≤ 241 ∧ 241 ≤ 240) := by decide +kernel

/-- The order of the three conditions (R152), at their limits: BREAK before LIFE before WEAR, and a wear of exactly its
limit withdraws nothing. -/
theorem test_withdrawal_reasons :
    let t := { type45 with lengthWearLimit := 50 }
    let r := fun (life : Nat) (wear : Int) => { tool .inService none with lifeUsed := life, lengthWear := wear }
    [withdrawalReason t true (r 240 51), withdrawalReason t false (r 240 51), withdrawalReason t false (r 239 51),
        withdrawalReason t false (r 239 (-51)), withdrawalReason t false (r 239 (-50))]
      = [some .break_, some .life, some .wear, some .wear, none] := by decide +kernel

/-- Each refusal of DEFINE_MACHINE, PAUSE_HANDOFF and RESUME_HANDOFF; the BAD_INDEX of the last two carries a free
value, so here only its status. -/
theorem witness_MachineRequestsTakeEffect_refusals :
    let paused : State := { bench with machines := bench.machines.set 11 { machine12 with paused := true } }
    [.defineMachine 1 0 ⟨1, 40, 0⟩, .defineMachine 1 32 ⟨1, 40, 0⟩].map (replyOf · bench)
        = List.replicate 2 (some (.badIndex, .none))
      ∧ [(⟨2, 40, 0⟩ : MachineBody), ⟨1, 40, 2⟩, ⟨1, 0, 0⟩, ⟨1, 241, 0⟩].map
          (fun b => replyOf (.defineMachine 1 12 b) bench) = List.replicate 4 (some (.invalidTable, .none))
      ∧ [(⟨1, 40, if machine12.push then 1 else 0⟩ : MachineBody), ⟨0, 40, 0⟩, ⟨1, 17, 0⟩].map
          (fun b => replyOf (.defineMachine 1 12 b) bench)
        = [some (.noChange, .none), some (.state, .none), some (.state, .none)]
      ∧ [.pauseHandoff 1 32, .resumeHandoff 1 0].map (fun i => (replyOf i bench).map (·.1))
        = List.replicate 2 (some .badIndex)
      ∧ [.pauseHandoff 1 31, .resumeHandoff 1 31, .resumeHandoff 1 12].map (replyOf · bench)
        = [some (.state, .handoffPaused 31 false 0), some (.state, .handoffPaused 31 false 0),
          some (.noChange, .handoffPaused 12 false 1)]
      ∧ replyOf (.pauseHandoff 1 12) paused = some (.noChange, .handoffPaused 12 true 1) := by decide +kernel

theorem witness_MachineRequestsTakeEffect :
    WriteTaken bench ∧ (machineAt bench 12 = some machine12
      ∧ (∀ e ∈ bench.issueMap, e.1 / 256 = 12 → e.1 % 256 ≤ 18)
      ∧ (∀ e ∈ bench.issueMap, e.1 / 256 = 31 → e.1 % 256 = 0) ∧ 18 ≠ machine12.magazine
      ∧ machine12.paused = false ∧ machineAt bench 31 = some MachineDef.reset
      ∧ machineAt { bench with machines := bench.machines.set 11 { machine12 with paused := true } } 12
        = some { machine12 with paused := true }) := ⟨bench_write_taken, by decide +kernel⟩

/-- Each refusal of the profile requests. -/
theorem witness_ProfileRequestsTakeEffect_refusals :
    let b : ProfileBody := ⟨1, [⟨7, 0, 4, 0, 0⟩], 0⟩
    let emptyBank : State :=
      { bench with machines := bench.machines.set 11 { machine12 with bankB := Profile.reset } }
    [.writeProfile 1 0 0 b, .writeProfile 1 32 0 b, .writeProfile 1 12 2 b, .switchProfile 1 32 0,
        .switchProfile 1 12 2, .cancelProfileSwitch 1 0].map (replyOf · bench)
        = List.replicate 6 (some (.badIndex, .none))
      ∧ [{ b with count := 2 }, { b with offset := -1000000000 }, ⟨1, [⟨16, 0, 4, 0, 0⟩], 0⟩,
          ⟨1, [⟨7, 8, 4, 0, 0⟩], 0⟩, ⟨1, [⟨7, 0, 16, 0, 0⟩], 0⟩, ⟨1, [⟨7, 0, 4, 2, 0⟩], 0⟩,
          ⟨1, [⟨7, 0, 4, 0, 2⟩], 0⟩].map (fun x => replyOf (.writeProfile 1 12 1 x) bench)
        = List.replicate 7 (some (.invalidTable, .none))
      ∧ profileReason machine12.bankA = none ∧ replyOf (.writeProfile 1 12 0 b) bench = some (.activeBank, .none)
      ∧ replyOf (.writeProfile 1 12 1 b) draining = some (.busy, .none)
      ∧ replyOf (.writeProfile 1 12 1 ⟨0, [], 0⟩) emptyBank = some (.noChange, .none)
      ∧ replyOf (.switchProfile 1 12 1) emptyBank = some (.invalidTable, .profileInvalid .slotCount)
      ∧ replyOf (.cancelProfileSwitch 1 12) bench = some (.state, .none) := by decide +kernel

theorem witness_ProfileRequestsTakeEffect :
    let b : ProfileBody := ⟨1, [⟨7, 0, 4, 0, 0⟩], 0⟩
    WriteTaken bench ∧ WriteTaken { bench with waitList := [] } ∧ (machineAt bench 12 = some machine12
      ∧ b.count ≤ 12 ∧ b.slots.length = b.count ∧ 7 ≤ 15 ∧ 4 ≤ 15
      ∧ (⟨[⟨7, 0, 4, false, false⟩], 0⟩ : Profile) ≠ profileOf machine12 .bankB ∧ machine12.active ≠ .bankB
      ∧ profileReason machine12.bankB = none ∧ machine12.switch = none
      ∧ (∃ e ∈ bench.waitList, e.machine = 12) ∧ machine12.active = .bankA
      ∧ (machineAt draining 12).map (fun x => (x.active, profileValid (profileOf x .bankB))) = some (.bankA, true)
      ∧ (machineAt draining 12).bind (·.switch) = some ⟨.bankB, 1, 1⟩ ∧ protectionPasses draining = true
      ∧ draining.resetPin = false ∧ draining.answers.length < 8) :=
  ⟨bench_write_taken, bench_write_taken, by decide +kernel⟩

theorem witness_WaitersStayCounted :
    step (waiting (.switchProfile 1 12 1)) = .next draining ∧ WaitersDistinct bench ∧ SwitchesCounted bench :=
  ⟨rfl, bench_legal.2.2.2.2.2.2.2.2.2.2.1, bench_legal.2.2.2.2.2.2.2.2.2.2.2.1⟩

end Sys2Proof.Tests
end

/-! PROOFS. The length arithmetic of chapter 4: rounding, the equations of the gap stage, and the five stages on
one frame. -/

namespace Sys2Proof.LengthArithmetic

open Sys2Proof Sys2Proof.Machine

/-! ## Rounding -/

theorem roundHalfOut_zero (d : Nat) : roundHalfOut 0 d = 0 := by
  have half_below_one : d / (2 * d) = 0 := by
    rcases Nat.eq_zero_or_pos d with rfl | hd
    · rfl
    · exact Nat.div_eq_of_lt (by omega)
  simp [roundHalfOut, half_below_one]

/-- Round-half-out treats the two signs alike (00_scope.md 5.2). -/
theorem roundHalfOut_neg (x : Int) (d : Nat) : roundHalfOut (-x) d = -roundHalfOut x d := by
  rcases lt_trichotomy x 0 with hx | rfl | hx
  · rw [roundHalfOut, if_pos (by omega), roundHalfOut, if_neg (by omega), Int.natAbs_neg, neg_neg]
  · simp [roundHalfOut_zero]
  · rw [roundHalfOut, if_neg (by omega), roundHalfOut, if_pos (by omega), Int.natAbs_neg]

/-- Rounding does not pass a whole number that the quotient does not pass. -/
theorem roundHalfOut_le {x r : Int} {d : Nat} (hd : 0 < d) (h : x ≤ r * d) : roundHalfOut x d ≤ r := by
  have hd' : (0 : Int) < 2 * d := by omega
  unfold roundHalfOut
  split
  next hx =>
    have : (2 * |x| + d) / (2 * d) < r + 1 :=
      Int.ediv_lt_of_lt_mul hd' (by rw [abs_of_nonneg hx]; linarith)
    push_cast
    omega
  next hx =>
    have : -r ≤ (2 * |x| + d) / (2 * d) :=
      Int.le_ediv_of_mul_le hd' (by rw [abs_of_neg (by omega)]; linarith)
    push_cast
    omega

theorem le_roundHalfOut {x r : Int} {d : Nat} (hd : 0 < d) (h : r * d ≤ x) : r ≤ roundHalfOut x d := by
  have : roundHalfOut (-x) d ≤ -r := roundHalfOut_le hd (by rw [neg_mul]; omega)
  rw [roundHalfOut_neg] at this
  omega

/-- The step of R72 lies between 0 and the rise. -/
theorem interpolationStep_between {rise k : Int} {run : Nat} (h0 : 0 ≤ k) (hk : k < run) :
    min 0 rise ≤ roundHalfOut (rise * k) run ∧ roundHalfOut (rise * k) run ≤ max 0 rise := by
  have hrun : 0 < run := by omega
  constructor
  · apply le_roundHalfOut hrun
    rcases le_total 0 rise with hr | hr
    · rw [min_eq_left hr, zero_mul]
      exact mul_nonneg hr h0
    · rw [min_eq_right hr]
      exact mul_le_mul_of_nonpos_left hk.le hr
  · apply roundHalfOut_le hrun
    rcases le_total 0 rise with hr | hr
    · rw [max_eq_right hr]
      exact mul_le_mul_of_nonneg_left hk.le hr
    · rw [max_eq_left hr, zero_mul]
      exact mul_nonpos_of_nonpos_of_nonneg hr h0

/-! ## The gap stage (R72): one equation per case -/

/-- The gap inside the segment from `a` to `b`. -/
def interpolated (a b : Breakpoint) (q : Int) : Int :=
  a.g + roundHalfOut ((b.g - a.g) * (q - a.q)) (b.q - a.q).toNat

theorem interpolated_at_start (a b : Breakpoint) : interpolated a b a.q = a.g := by
  simp [interpolated, roundHalfOut_zero]

theorem interpolated_between {a b : Breakpoint} {q : Int} (ha : a.q ≤ q) (hb : q < b.q) :
    min a.g b.g ≤ interpolated a b q ∧ interpolated a b q ≤ max a.g b.g := by
  have := interpolationStep_between (rise := b.g - a.g) (k := q - a.q) (run := (b.q - a.q).toNat)
    (by omega) (by omega)
  unfold interpolated
  omega

theorem gapStage_below {p : Breakpoint} {q : Int} (rest : List Breakpoint) (h : q < p.q) :
    gapStage (p :: rest) q = (p.g, true) := if_pos h

theorem gapStage_single {p : Breakpoint} {q : Int} (h : p.q ≤ q) :
    gapStage [p] q = (p.g, decide (p.q < q)) := if_neg h.not_gt

theorem gapStage_segment {a b : Breakpoint} {q : Int} (after : List Breakpoint) (ha : a.q ≤ q) (hb : q < b.q) :
    gapStage (a :: b :: after) q = (interpolated a b q, false) := by
  simp [gapStage, gapFrom, interpolated, ha.not_gt, hb]

theorem gapStage_skip {a b : Breakpoint} {q : Int} (after : List Breakpoint) (ha : a.q ≤ q) (hb : b.q ≤ q) :
    gapStage (a :: b :: after) q = gapStage (b :: after) q := by
  simp [gapStage, gapFrom, ha.not_gt, hb.not_gt]

/-- The stage depends only on the breakpoints from the last one known to be at or below `q`. -/
theorem gapStage_append {before after : List Breakpoint} {a : Breakpoint} {q : Int}
    (rising : (before ++ a :: after).Pairwise (fun x y => x.q < y.q)) (ha : a.q ≤ q) :
    gapStage (before ++ a :: after) q = gapStage (a :: after) q := by
  induction before with
  | nil => rfl
  | cons x before ih =>
    obtain ⟨hx, rising⟩ := List.pairwise_cons.mp rising
    have x_le : x.q ≤ q := (hx a (by simp)).le.trans ha
    rw [List.cons_append, ← ih rising]
    cases before with
    | nil => exact gapStage_skip after x_le ha
    | cons y before =>
      have y_lt : y.q < a.q := (List.pairwise_cons.mp rising).1 a (by simp)
      exact gapStage_skip _ x_le (y_lt.le.trans ha)

/-- At a breakpoint the gap is that breakpoint's, without a mark. -/
theorem gapStage_at_head (b : Breakpoint) {after : List Breakpoint}
    (rising : (b :: after).Pairwise (fun x y => x.q < y.q)) : gapStage (b :: after) b.q = (b.g, false) := by
  cases after with
  | nil => simp [gapStage_single le_rfl]
  | cons r after =>
    have hr : b.q < r.q := (List.pairwise_cons.mp rising).1 r (by simp)
    rw [gapStage_segment after le_rfl hr, interpolated_at_start]

/-- The gap stays in any range that holds the gaps of all breakpoints. -/
theorem gapStage_in_range {lo hi : Int} (q : Int) (p : Breakpoint) (rest : List Breakpoint)
    (range : ∀ b ∈ p :: rest, lo ≤ b.g ∧ b.g ≤ hi) :
    lo ≤ (gapStage (p :: rest) q).1 ∧ (gapStage (p :: rest) q).1 ≤ hi := by
  have hp := range p (by simp)
  induction rest generalizing p with
  | nil =>
    rcases lt_or_ge q p.q with below | above
    · rwa [gapStage_below [] below]
    · rwa [gapStage_single above]
  | cons r rest ih =>
    have hr := range r (by simp)
    rcases lt_or_ge q p.q with below | above
    · rwa [gapStage_below _ below]
    rcases lt_or_ge q r.q with inside | beyond
    · have := interpolated_between above inside
      rw [gapStage_segment rest above inside]
      dsimp only
      omega
    · rw [gapStage_skip rest above beyond]
      exact ih r (fun b hb => range b (List.mem_cons_of_mem p hb)) hr

/-- Settles O36: each clause cuts the list at the breakpoint that it names, and `gapStage_append` drops what is
before the cut. -/
theorem gapInterpolates : Obligations.GapInterpolates := by
  intro p rest q rising
  refine ⟨gapStage_below rest, ?_, ?_, ?_, gapStage_in_range q p rest⟩
  · rintro b hb rfl
    obtain ⟨before, after, cut⟩ := List.append_of_mem hb
    rw [cut] at rising ⊢
    rw [gapStage_append rising le_rfl]
    exact gapStage_at_head b (List.pairwise_append.mp rising).2.1
  · intro l last above
    obtain ⟨before, cut⟩ := List.getLast?_eq_some_iff.mp last
    rw [cut] at rising ⊢
    rw [gapStage_append rising above.le, gapStage_single above.le, decide_eq_true above]
  · intro before after a b cut ha hb
    rw [cut] at rising ⊢
    rw [gapStage_append rising ha, gapStage_segment after ha hb]
    exact ⟨rfl, interpolated_between ha hb⟩

/-! ## The stages of a length (R71, R73 to R76) -/

/-- A value limited to the LU range. -/
def limited (x : Int) : Int := max (-999999999) (min 999999999 x)

/-- The mark tells exactly that limiting changed the value. -/
theorem clampLength_eq (x : Int) : clampLength x = (limited x, decide (limited x ≠ x)) := by
  unfold clampLength limited Config.lengthLimit
  split_ifs with above below <;>
    simp only [Prod.mk.injEq, true_eq_decide_iff, false_eq_decide_iff] <;> omega

theorem ratioStage_eq (g : GaugeFrame) :
    let ratio := if g.gating = 0 then g.sensor * 65536 / g.reference else g.reference * 65536 / g.sensor
    (ratio ≤ 1048575 → ratioStage g = (ratio, false)) ∧ (1048575 < ratio → ratioStage g = (1048575, true)) :=
  ⟨fun within => if_neg within.not_gt, fun past => if_pos past⟩

theorem positionStage_eq (b : CalBank) (scale : Int) :
    let position := roundHalfOut (scale * b.scaleNum) b.scaleDen + b.zero
    positionStage b scale = (limited position, decide (limited position ≠ position)) := clampLength_eq _

theorem thermalStage_eq (b : CalBank) (raw : Int) (temperature : Nat) :
    let length := raw - roundHalfOut (raw * b.alpha * (temperature - 80)) 4000000
    thermalStage b raw temperature = (limited length, decide (limited length ≠ length)) := clampLength_eq _

/-- The five stages composed: a reading carries the mark of each stage that met a limit (R76). -/
theorem compensated_eq (b : CalBank) (g : GaugeFrame) :
    let gap := gapStage b.breakpoints (ratioStage g).1
    let position := roundHalfOut (g.scale * b.scaleNum) b.scaleDen + b.zero
    let raw := limited position + gap.1
    let length := limited raw - roundHalfOut (limited raw * b.alpha * (g.temperature - 80)) 4000000
    compensated b g = ⟨limited length, (ratioStage g).2 || gap.2 || decide (limited position ≠ position)
      || decide (limited raw ≠ raw) || decide (limited length ≠ length)⟩ := by
  simp only [compensated, positionStage_eq, clampLength_eq, thermalStage_eq]

/-- Settles O37: each stage limits as `clampLength_eq` says, and `compensated_eq` composes them. -/
theorem lengthStages : Obligations.LengthStages := by
  refine ⟨fun b g => ?_, fun history => ⟨rfl, rfl, rfl⟩⟩
  obtain ⟨within, past⟩ := ratioStage_eq g
  refine ⟨within, past, positionStage_eq b g.scale, ?_, ?_⟩
  · rw [compensated_eq]
    rfl
  · rw [compensated_eq]
    simp only [Bool.or_eq_true, decide_eq_true_eq, or_assoc]
    rfl

end Sys2Proof.LengthArithmetic

/-! PROOFS. Handoff requests of chapter 8: the three treatments of a request by the list as it stands, and the frame
of a defined machine. -/

namespace Sys2Proof.HandoffRequests

open Sys2Proof Sys2Proof.Machine

/-! ## The wait list at a request (R140) -/

theorem isWaiting_iff {s : State} {p : Place} :
    isWaiting s p = true ↔ ∃ e ∈ s.waitList, e.machine = p.machine ∧ e.pocket = p.pocket := by
  simp [isWaiting]

section Treatments

variable {s : State} {p : Place} (origin : Origin) (assembly : Option Nat)

theorem placeRequest_folds (waits : isWaiting s p = true) : placeRequest p origin assembly s = s := if_pos waits

theorem placeRequest_joins (absent : ¬isWaiting s p = true) (room : s.waitList.length < Config.waitPlaces) :
    placeRequest p origin assembly s = { s with waitList := s.waitList ++ [⟨p.machine, p.pocket, false⟩] } :=
  (if_neg absent).trans (if_pos room)

theorem placeRequest_overflows (absent : ¬isWaiting s p = true) (full : Config.waitPlaces ≤ s.waitList.length) :
    placeRequest p origin assembly s = notify (.requestDropped p.machine p.pocket origin assembly)
      { s with handoffDropped := tally s.handoffDropped } :=
  (if_neg absent).trans (if_neg full.not_gt)

end Treatments

/-! ## The frame of a machine (R139, R163) -/

/-- With the RESET pin released, a frame of a defined machine has its effect; the end of its reception leaves the
definitions, and the grants follow. -/
theorem fromMachine_defined {s : State} {m : Nat} (effect : State → State) (released : s.resetPin = false)
    (defined : machineDefined s m = true) : fromMachine m effect s = grants (effect (heard .hall s)) := by
  have still : machineDefined (heard .hall s) m = true := by rw [machineDefined_heard, defined]
  rw [fromMachine, onArrival_released _ _ _ released, if_pos still]

theorem exec_dataRequest (m p : Nat) (s : State) : exec (.dataRequest m p) s = execDataRequest m p s := rfl

theorem exec_dataRequest_defined {s : State} {m p : Nat} (released : s.resetPin = false)
    (defined : machineDefined s m = true) (low : 1 ≤ p) (high : p ≤ 240) :
    exec (.dataRequest m p) s = .next (grants (placeRequest ⟨m, p⟩ .dataRequest none (heard .hall s))) := by
  have wellformed : ¬(p = 0 ∨ 240 < p) := by omega
  rw [exec_dataRequest, execDataRequest, fromMachine_defined _ released defined, if_neg wellformed]

/-- Settles O54: the three treatments are the branches of `placeRequest`, told apart by `isWaiting_iff`, and a
well-formed DATA_REQUEST of a defined machine reaches it. -/
theorem handoffRequestFoldsOrJoins : Obligations.HandoffRequestFoldsOrJoins := by
  refine ⟨fun s p origin assembly => ?_, fun s m p => exec_dataRequest_defined⟩
  simp only [← isWaiting_iff]
  exact ⟨placeRequest_folds origin assembly, placeRequest_joins origin assembly,
    placeRequest_overflows origin assembly⟩

end Sys2Proof.HandoffRequests

/-! PROOFS. The protection check of R178: which of the two request paths each request of section 10.1 takes, and what
each path answers when the request is taken. -/

namespace Sys2Proof.ProtectionCheck

open Sys2Proof Sys2Proof.Machine

theorem protectionPasses_iff (s : State) :
    protectionPasses s = true ↔ s.protection = .open_ ∨ (s.protection = .keyed ∧ s.key = true) := by
  unfold protectionPasses
  cases s.protection <;> simp

/-! ## Owners outside the check answer no LOCKED -/

/-- The owner's rule by itself never gives the status LOCKED. -/
def NeverLocked (owner : State → Taken) : Prop := ∀ u, (owner u).status ≠ .locked

@[simp] theorem replied_status (s : State) (status : Status) (body : ReplyBody) :
    (replied s status body).status = status := rfl

theorem replied_neverLocked {status : Status} (f : State → State) (body : State → ReplyBody)
    (other : status ≠ .locked) : NeverLocked fun u => replied (f u) status (body u) := fun _ => other

theorem ownClearStatus_neverLocked : NeverLocked ownClearStatus := by
  intro u
  unfold ownClearStatus
  split <;> simp

theorem ownReadType_neverLocked (t : Nat) : NeverLocked (ownReadType t) := by
  intro u
  unfold ownReadType
  split <;> simp

theorem ownReadCal_neverLocked (head bank : Nat) : NeverLocked (ownReadCal head bank) := by
  intro u
  unfold ownReadCal
  split <;> simp

theorem ownReadProfile_neverLocked (m bank : Nat) : NeverLocked (ownReadProfile m bank) := by
  intro u
  unfold ownReadProfile
  split <;> simp

theorem ownSetPaused_neverLocked (m : Nat) (paused : Bool) : NeverLocked (ownSetPaused m paused) := by
  intro u
  unfold ownSetPaused
  split
  next => simp
  next => split_ifs <;> simp

theorem ownReadPockets_neverLocked (m first count : Nat) : NeverLocked (ownReadPockets m first count) := by
  intro u
  unfold ownReadPockets
  split
  next => simp
  next => split_ifs <;> simp

theorem ownReadAssemblies_neverLocked (start count : Nat) : NeverLocked (ownReadAssemblies start count) := by
  intro u
  unfold ownReadAssemblies
  split <;> simp

theorem ownMoveSweep_neverLocked (source target : SweepState) : NeverLocked (ownMoveSweep source target) := by
  intro u
  unfold ownMoveSweep
  split <;> simp

/-! ## The two paths of a listed request -/

/-- The command goes through the protection check under its code and request tag. -/
def RunsChecked (i : Instr) (code rt : Nat) : Prop :=
  ∃ owner, ∀ s, exec i s = .next (tableRequest code rt owner s)

/-- The command goes past the protection check, to an owner that answers no LOCKED. -/
def RunsUnchecked (i : Instr) (code rt : Nat) : Prop :=
  ∃ owner, NeverLocked owner ∧ ∀ s, exec i s = .next (openRequest code rt owner s)

theorem tableWriting_runsChecked {i : Instr} {code rt : Nat} {bytes : List Byte} (writes : tableWriting i = true)
    (spelled : encodeRequest i = some (code, rt, bytes)) : RunsChecked i code rt := by
  cases i
  case writeType | writeCal | switchCal | cancelCalSwitch | headRestore | defineMachine | writeProfile
      | switchProfile | cancelProfileSwitch | create | restore | changeType | bindTag | unbindTag | rebuild | delete
      | forceReturn | writeHolds | seedAudit | setProtection =>
    cases spelled
    exact ⟨_, fun _ => rfl⟩
  all_goals cases writes

theorem unprotected_runsUnchecked {i : Instr} (listed : listedRequest i = true) (reads : tableWriting i = false) :
    ∃ code rt, RunsUnchecked i code rt := by
  cases i
  case identify => exact ⟨_, _, _, replied_neverLocked id _ (by decide), fun _ => rfl⟩
  case readStatus => exact ⟨_, _, _, replied_neverLocked id _ (by decide), fun _ => rfl⟩
  case readCounters => exact ⟨_, _, _, replied_neverLocked id _ (by decide), fun _ => rfl⟩
  case clearCounters => exact ⟨_, _, _, replied_neverLocked clearedCounters _ (by decide), fun _ => rfl⟩
  case lineReset => exact ⟨_, _, _, replied_neverLocked lineReset _ (by decide), fun _ => rfl⟩
  case clearStatus => exact ⟨_, _, _, ownClearStatus_neverLocked, fun _ => rfl⟩
  case readType => exact ⟨_, _, _, ownReadType_neverLocked _, fun _ => rfl⟩
  case readCal => exact ⟨_, _, _, ownReadCal_neverLocked _ _, fun _ => rfl⟩
  case readProfile => exact ⟨_, _, _, ownReadProfile_neverLocked _ _, fun _ => rfl⟩
  case pauseHandoff => exact ⟨_, _, _, ownSetPaused_neverLocked _ true, fun _ => rfl⟩
  case resumeHandoff => exact ⟨_, _, _, ownSetPaused_neverLocked _ false, fun _ => rfl⟩
  case readPockets => exact ⟨_, _, _, ownReadPockets_neverLocked _ _ _, fun _ => rfl⟩
  case readAssemblies => exact ⟨_, _, _, ownReadAssemblies_neverLocked _ _, fun _ => rfl⟩
  case sweepSuspend => exact ⟨_, _, _, ownMoveSweep_neverLocked _ _, fun _ => rfl⟩
  case sweepResume => exact ⟨_, _, _, ownMoveSweep_neverLocked _ _, fun _ => rfl⟩
  case writeType | writeCal | switchCal | cancelCalSwitch | headRestore | defineMachine | writeProfile
      | switchProfile | cancelProfileSwitch | create | restore | changeType | bindTag | unbindTag | rebuild | delete
      | forceReturn | writeHolds | seedAudit | setProtection => cases reads
  all_goals cases listed

/-! ## What each path answers -/

/-- A reply of the Management Unit is the youngest answer, and the crib frame that asked for it has ended. -/
theorem reply_heard (code rt : Nat) (status : Status) (body : ReplyBody) (s : State) :
    reply code rt status body (heard .crib s) = answered (.reply code rt status s.generation body) s := rfl

theorem tableRequest_locked (code rt : Nat) (owner : State → Taken) {s : State} (taken : RequestTaken s)
    (fails : protectionPasses s = false) :
    tableRequest code rt owner s
      = grants (answered (.reply code rt .locked s.generation .none) { s with protectionError := true }) :=
  (tableRequest_refused code rt owner s taken fails).trans
    (congrArg grants (reply_heard code rt .locked .none { s with protectionError := true }))

theorem openRequest_not_locked {owner : State → Taken} (never : NeverLocked owner) (code rt : Nat) {s : State}
    (taken : RequestTaken s) (before : List Answer) (code' rt' g : Nat) (body : ReplyBody) :
    (openRequest code rt owner s).answers ≠ before ++ [.reply code' rt' .locked g body] := by
  rw [openRequest_taken code rt owner s taken, grants_answers, reply_answers]
  intro same
  have last := List.append_inj_right' same rfl
  simp only [List.cons.injEq, Answer.reply.injEq] at last
  obtain ⟨⟨-, -, locked, -⟩, -⟩ := last
  exact never _ locked

/-- Settles O19: a table-writing request reaches the check, where LOCKED is the refusal, and the others reach an owner
that gives no LOCKED. -/
theorem protectionRefusesTableWrites : Obligations.ProtectionRefusesTableWrites := by
  refine ⟨protectionPasses_iff, ?_, ?_⟩
  · intro s i code rt bytes writes spelled taken fails
    obtain ⟨owner, runs⟩ := tableWriting_runsChecked writes spelled
    rw [runs, tableRequest_locked code rt owner taken fails]
  · intro s t i code rt g body listed reads taken result
    obtain ⟨code', rt', owner, never, runs⟩ := unprotected_runsUnchecked listed reads
    rw [runs] at result
    cases result
    exact openRequest_not_locked never code' rt' taken s.answers code rt g body

end Sys2Proof.ProtectionCheck

/-! PROOFS. What a step can do: the single changes of which every event is made, each with the conditions under which
the part makes it, and the theorem that every command is an event of that kind. Each invariant is then one case
analysis over the changes. -/

namespace Sys2Proof.Transitions

open Sys2Proof Sys2Proof.Machine

/-! ## The changes -/

/-- How a READY head leaves a capture: its slot is freed or latched with no switch pending, a pending switch completes
with it (R65), or the head goes to FAULT (R51). -/
inductive HeadEnds (x : Head) : Head → Prop
  | freed (slot : Slot) (free : ∀ c, slot ≠ .armed c) (still : x.pendingCal = none) : HeadEnds x { x with slot := slot }
  | switched (slot : Slot) (free : ∀ c, slot ≠ .armed c) (b : Bank) (pending : x.pendingCal = some b) :
      HeadEnds x { switchedTo x b with slot := slot }
  | faulted (record : FaultRecord) : HeadEnds x { x with status := .fault record, pendingCal := none, slot := .idle }

/-- The sweep once a mark has gone otherwise than by a step (R37, R38). -/
def lessMark (marked : Bool) (w : Sweep) : Sweep :=
  if marked then { w with marks := w.marks - 1, otherwise := w.otherwise + 1 } else w

/-- The state once an entry of the wait list has been taken into the handoff FIFO, its switch not yet drained. -/
def entryMoved (e : WaitEntry) (s : State) : State :=
  { s with
    waitList := s.waitList.erase e
    handoff := s.handoff ++ [⟨e.machine, e.pocket, toolContent s ⟨e.machine, e.pocket⟩, false⟩] }

/-- A machine whose switch loses one marked entry, completing with the last (R134). -/
def drained (x : MachineDef) (w : ProfileSwitch) : MachineDef :=
  if w.marked ≤ 1 then { x with active := w.target, switch := none }
  else { x with switch := some { w with marked := w.marked - 1 } }

/-- A change of the line, the queues, the counters or the mode; no table, head or wait list changes. -/
inductive LineChange (s : State) : State → Prop
  | receptionEnded (p : Port) : LineChange s (heard p s)
  | lineCounted (p : Port) (c : LineCounter) : LineChange s (countLine p c s)
  | transitEntered (p : Port) (f : Frame) (room : (transitToward s p).length < 8) : LineChange s (pushTransit p f s)
  | transitDropped (p : Port) : LineChange s (dropTransit p s)
  | cribSent (src : CribSource) (f : Frame) (sending : s.cribEgress.sending = some (src, f)) :
      LineChange s (completeCrib src s)
  | hallTransitSent (f : Frame) (sending : s.hallEgress.sending = some (.transit, f)) :
      LineChange s (completeHall .transit s)
  | handoffSent (f : Frame) (sending : s.hallEgress.sending = some (.handoff, f)) :
      LineChange s { s with hallEgress := { s.hallEgress with sending := none }, handoff := s.handoff.tail }
  | noticeEntered (body : NoticeBody) (room : s.notices.length < 24) :
      LineChange s { s with notices := s.notices ++ [⟨s.discardedNotices, body⟩], discardedNotices := 0 }
  | noticeDiscarded : LineChange s { s with discardedNotices := min (s.discardedNotices + 1) 255 }
  | guardCounted : LineChange s { s with guardBlocked := tally s.guardBlocked }
  | tagCounted (c : Fin 4) : LineChange s { s with tagDropped := s.tagDropped.set c (tally s.tagDropped[c]) }
  | requestCounted : LineChange s { s with mgmtDropped := tally s.mgmtDropped }
  | mismatchCounted : LineChange s { s with usageMismatch := tally s.usageMismatch }
  | handoffCounted : LineChange s { s with handoffDropped := tally s.handoffDropped }
  | errorMarked (error : Bool) : LineChange s { s with protectionError := error }
  | modeSet (mode : Protection) (unlocked : s.protection ≠ .locked) : LineChange s { s with protection := mode }
  | auditSet (v : BitVec 15) (nonzero : s.audit ≠ 0 → v ≠ 0) : LineChange s { s with audit := v }
  | framesVoided (n : Nat) : LineChange s { s with handoff := s.handoff.map (voidedFor n) }

/-- A change of one head alone. -/
inductive HeadChange (s : State) : State → Prop
  | gaugeCounted (h : Fin 4) : HeadChange s (discardGauge h s)
  | slotMoved (h : Fin 4) (slot : Slot) (ready : (headAt s h).status = .ready)
      (unarmed : armedCapture (headAt s h) = none) (free : ∀ c, slot ≠ .armed c) :
      HeadChange s (putHead h { headAt s h with slot := slot } s)
  | headFaulted (h : Fin 4) (record : FaultRecord) (ready : (headAt s h).status = .ready)
      (unarmed : armedCapture (headAt s h) = none) :
      HeadChange s (putHead h { headAt s h with status := .fault record, pendingCal := none, slot := .idle } s)
  | readingEntered (h : Fin 4) (c : Capture) (frames : Nat) (history : List Sample)
      (ready : (headAt s h).status = .ready) (armed : (headAt s h).slot = .armed c) (one : 1 ≤ frames)
      (before : frames < 64)
      (kept : history.length ≤ (calBankOf (headAt s h) c.bank).depth ∨ history = c.history) :
      HeadChange s (putHead h { headAt s h with slot := .armed { c with frames := frames, history := history } } s)
  | calWritten (h : Fin 4) (b : Bank) (content : CalBank)
      (unused : ¬((headAt s h).active = b ∧ calValid (calBankOf (headAt s h) b) = true))
      (untargeted : ¬((headAt s h).active ≠ b ∧ (headAt s h).pendingCal = some b)) :
      HeadChange s (putHead h (withWrittenCal (headAt s h) b content) s)
  | calCancelled (h : Fin 4) : HeadChange s (putHead h { headAt s h with pendingCal := none } s)
  | calRequested (h : Fin 4) (b : Bank) (c : Capture) (other : (headAt s h).active ≠ b)
      (valid : calValid (calBankOf (headAt s h) b) = true) (armed : (headAt s h).slot = .armed c) :
      HeadChange s (putHead h { headAt s h with pendingCal := some b } s)
  | calSwitched (h : Fin 4) (b : Bank) (valid : calValid (calBankOf (headAt s h) b) = true)
      (unarmed : armedCapture (headAt s h) = none) : HeadChange s (putHead h (switchedTo (headAt s h) b) s)
  | headRestored (h : Fin 4) (record : FaultRecord) (fault : (headAt s h).status = .fault record) :
      HeadChange s (putHead h { headAt s h with status := .ready } s)

/-- A change of a record together with the heads that hold it, or with the sweep. -/
inductive CaptureChange (s : State) : State → Prop
  | captureAborted (h : Fin 4) (c : Capture) (y : Head) (ready : (headAt s h).status = .ready)
      (armed : (headAt s h).slot = .armed c) (ends : HeadEnds (headAt s h) y) :
      CaptureChange s (putHead h y (setState c.assembly c.prior s))
  | captureSettled (h : Fin 4) (c c' : Capture) (r : Assembly) (y : Head) (ready : (headAt s h).status = .ready)
      (armed : (headAt s h).slot = .armed c) (same : c'.assembly = c.assembly)
      (record : recordAt s c.assembly = some r) (ends : HeadEnds (headAt s h) y) :
      CaptureChange s (putHead h y (putAssembly c.assembly (settledRecord h c' (typeAt s r.type) r)
        { s with sweep := lessMark r.marked s.sweep }))
  | contactArmed (h : Fin 4) (n : Nat) (r : Assembly) (c : Capture) (ready : (headAt s h).status = .ready)
      (idle : (headAt s h).slot = .idle) (record : recordAt s n = some r) (unheld : isHeld s n = false)
      (free : contactable r.state = true) (names : c.assembly = n) (prior : c.prior = r.state)
      (bank : c.bank = (headAt s h).active) (frames : c.frames = 1)
      (kept : c.history.length ≤ (activeCal (headAt s h)).depth) :
      CaptureChange s (putHead h { headAt s h with slot := .armed c } (putAssembly n { r with state := .measuring } s))
  | recordSwept (n : Nat) (running : s.sweep.state = .running) (next : nextMarked s = some n) : CaptureChange s (stepOn n s)
  | recordReviewed (n : Nat) (r : Assembly) (record : recordAt s n = some r) (marked : r.marked = true) :
      CaptureChange s (clearedOtherwise (evaluate n s))

/-- A change of one record, with what its tag, its type and its place count for. -/
inductive RecordChange (s : State) : State → Prop
  | recordUsed (n : Nat) (r : Assembly) (u : UsageReport) (record : recordAt s n = some r) :
      RecordChange s (putAssembly n (usedRecord u r) s)
  | recordWithdrawn (n : Nat) (r : Assembly) (u : UsageReport) (reason : Reason) (record : recordAt s n = some r)
      (out : r.state = .issued ∨ r.state = .inService) :
      RecordChange s (putAssembly n { usedRecord u r with state := .withdrawn, reason := some reason } s)
  | serviceEntered (n : Nat) (r : Assembly) (record : recordAt s n = some r) (issued : r.state = .issued) :
      RecordChange s (putAssembly n { r with state := .inService } s)
  | recordIssued (p : Place) (n : Nat) (r : Assembly) (x : MachineDef) (record : recordAt s n = some r)
      (unheld : isHeld s n = false) (preset : r.state = .preset) (machine : machineAt s p.machine = some x)
      (defined : x.defined = true) (low : 1 ≤ p.pocket) (high : p.pocket ≤ x.magazine)
      (empty : occupant s p = none) : RecordChange s (grantIssue p n r s)
  | recordReturned (n : Nat) (r : Assembly) (draw : Nat) (record : recordAt s n = some r)
      (out : outOfCrib r.state = true) :
      RecordChange s (putAssembly n (returnedRecord (returnOutcome (typeAt s r.type) r draw) r)
        { s with issueMap := tableEraseValue s.issueMap n })
  | recordCreated (n t : Nat) (tag : Option Tag) (low : n ≤ 1023) (absent : recordAt s n = none)
      (usable : typeUsable s t = true)
      (unbound : ∀ x, tag = some x → tableGet s.tagMap x.toNat = none) :
      RecordChange s (countIn t (bindTo n tag (putAssembly n (createdRecord t tag) s)))
  | recordRestored (n : Nat) (b : RestoreBody) (r : Assembly) (low : n ≤ 1023) (unheld : isHeld s n = false)
      (replaceable : ∀ old, recordAt s n = some old → inCrib old.state = true)
      (described : describedRecord? b = some r) (usable : typeUsable s b.type = true)
      (unbound : ∀ x, b.tag = some x → boundElsewhere s n x = false)
      (placed : locationRefusal s b.location = none) :
      RecordChange s (enterPlace n b.location (countIn b.type (bindTo n b.tag
        (putAssembly n (restoredRecord (typeAt s b.type) r) (dropRecord (recordAt s n) s)))))
  | recordRetyped (n t : Nat) (r : Assembly) (record : recordAt s n = some r) (crib : inCrib r.state = true)
      (usable : typeUsable s t = true) (unmarked : r.marked = false) :
      RecordChange s (putAssembly n (evaluated (typeAt s t) { r with type := t }) (countIn t (countOut r.type s)))
  | tagBound (n : Nat) (r : Assembly) (tag : Tag) (record : recordAt s n = some r) (untagged : r.tag = none)
      (unbound : boundElsewhere s n tag = false) :
      RecordChange s (bindTo n (some tag) (putAssembly n { r with tag := some tag } s))
  | tagUnbound (n : Nat) (r : Assembly) (record : recordAt s n = some r) :
      RecordChange s (unbindFrom r.tag (putAssembly n { r with tag := none } s))
  | recordRebuilt (n : Nat) (r : Assembly) (record : recordAt s n = some r) (retired : r.state = .retired) :
      RecordChange s (putAssembly n (rebuiltRecord r) s)
  | recordDeleted (n : Nat) (r : Assembly) (record : recordAt s n = some r) (crib : inCrib r.state = true) :
      RecordChange s { dropRecord (some r) s with assemblies := tableErase (dropRecord (some r) s).assemblies n }

/-- A change of a tool type, with the marks of a tolerance write (R31, R32). -/
inductive TypeChange (s : State) : State → Prop
  | typeStored (t : Nat) (new : TypeRecord) (low : t ≤ 127) (legal : TypeLegal new)
      (counted : new.inUse = (typeAt s t).inUse) (kept : new.defined = true ∨ (typeAt s t).inUse = 0)
      (untouched : isToleranceWrite (typeAt s t) new = false) : TypeChange s (putType t new s)
  | typeJudged (t : Nat) (new : TypeRecord) (low : t ≤ 127) (idle : s.sweep.state = .idle) (legal : TypeLegal new)
      (counted : new.inUse = (typeAt s t).inUse) (kept : new.defined = true ∨ (typeAt s t).inUse = 0) :
      TypeChange s (markType t (putType t new s))

/-- A change of a machine definition or of the wait list, with the frame of a take. -/
inductive MachineChange (s : State) : State → Prop
  | machineStored (m : Nat) (x : MachineDef) (defined : Bool) (magazine : Nat) (push : Bool)
      (machine : machineAt s m = some x) (low : 1 ≤ magazine) (high : magazine ≤ 240)
      (emptied : x.defined = true → defined = false → occupiedAbove s m 0 = false ∧ x.switch = none)
      (shrunk : x.defined = true → defined = true → magazine < x.magazine → occupiedAbove s m magazine = false) :
      MachineChange s (putMachine m { x with
        defined := defined, magazine := magazine, push := push
        paused := x.paused && !(x.defined && !defined) } s)
  | pausedSet (m : Nat) (x : MachineDef) (paused : Bool) (machine : machineAt s m = some x)
      (defined : x.defined = true) : MachineChange s (putMachine m { x with paused := paused } s)
  | profileStored (m : Nat) (x : MachineDef) (b : Bank) (content : Profile) (machine : machineAt s m = some x)
      (short : content.slots.length ≤ 12) (untargeted : ∀ w, x.switch = some w → w.target = b → x.active = b) :
      MachineChange s (putMachine m (withProfile x b content) s)
  | profileCancelled (m : Nat) (x : MachineDef) (machine : machineAt s m = some x) :
      MachineChange s (putMachine m { x with switch := none } (if x.switch.isSome then remarkWaiting m false s else s))
  | profileSwitched (m : Nat) (x : MachineDef) (b : Bank) (machine : machineAt s m = some x)
      (idle : waitingFor s m = 0) : MachineChange s (putMachine m { x with active := b, switch := none } s)
  | profileRequested (m : Nat) (x : MachineDef) (b : Bank) (machine : machineAt s m = some x)
      (other : x.active ≠ b) (valid : profileValid (profileOf x b) = true) (waits : waitingFor s m ≠ 0) :
      MachineChange s (putMachine m { x with switch := some ⟨b, waitingFor s m, waitingFor s m⟩ } (remarkWaiting m true s))
  | waiterJoined (p : Place) (absent : isWaiting s p = false) (room : s.waitList.length < 32) :
      MachineChange s { s with waitList := s.waitList ++ [⟨p.machine, p.pocket, false⟩] }
  | entryTaken (e : WaitEntry) (next : nextTake s = some e)
      (plain : e.marked = true → (machineAt s e.machine).bind (·.switch) = none) : MachineChange s (entryMoved e s)
  | markTaken (e : WaitEntry) (x : MachineDef) (w : ProfileSwitch) (next : nextTake s = some e)
      (marked : e.marked = true) (machine : machineAt s e.machine = some x) (switch : x.switch = some w) :
      MachineChange s (putMachine e.machine (drained x w) (entryMoved e s))

/-- A single change of the state with the conditions under which the part makes it. Every event is a chain of these,
followed by its answer or reply, when it has one, and the grants. -/
inductive Change (s : State) : State → Prop
  | line {t : State} (changed : LineChange s t) : Change s t
  | head {t : State} (changed : HeadChange s t) : Change s t
  | capture {t : State} (changed : CaptureChange s t) : Change s t
  | record {t : State} (changed : RecordChange s t) : Change s t
  | type {t : State} (changed : TypeChange s t) : Change s t
  | machine {t : State} (changed : MachineChange s t) : Change s t
  | countersCleared : Change s (clearedCounters s)
  | sweepEnded (running : s.sweep.state = .running) (done : nextMarked s = none) :
      Change s { s with sweep := { s.sweep with state := .idle } }
  | sweepMoved (target : SweepState) (busy : s.sweep.state ≠ .idle) (stays : target ≠ .idle) :
      Change s { s with sweep := { s.sweep with state := target } }
  | lineReset : Change s (lineReset s)

/-- A chain of changes. -/
abbrev Changes : State → State → Prop := Relation.ReflTransGen Change

/-! ## Shared operations as chains -/

theorem changes_notify (body : NoticeBody) (s : State) : Changes s (notify body s) := by
  unfold notify
  split
  next room => exact .single (.line <| .noticeEntered body room)
  next => exact .single (.line .noticeDiscarded)

theorem changes_enterTransit (p : Port) (f : Frame) (s : State) : Changes s (enterTransit p f s) := by
  unfold enterTransit
  split
  next room => exact .single (.line <| .transitEntered p f room)
  next => exact .single (.line <| .transitDropped p)

theorem changes_placeRequest (p : Place) (origin : Origin) (assembly : Option Nat) (s : State) :
    Changes s (placeRequest p origin assembly s) := by
  unfold placeRequest
  split
  next => exact .refl
  next absent =>
    split
    next room => exact .single (.machine <| .waiterJoined p (by simpa using absent) room)
    next => exact (changes_notify _ _).head (.line .handoffCounted)

end Sys2Proof.Transitions

/-! PROOFS. Gauge frames as chains of changes. -/

namespace Sys2Proof.Transitions

open Sys2Proof Sys2Proof.Machine

/-! ## Gauge frames -/

theorem putHead_notify (h : Fin 4) (x : Head) (body : NoticeBody) (s : State) :
    putHead h x (notify body s) = notify body (putHead h x s) := by
  unfold notify putHead
  split <;> rfl

theorem putHead_putHead (h : Fin 4) (x y : Head) (s : State) : putHead h x (putHead h y s) = putHead h x s := by
  simp [putHead]

theorem headAt_putHead_same (h : Fin 4) (x : Head) (s : State) : headAt (putHead h x s) h = x := by
  rw [headAt_putHead, if_pos rfl]

theorem slot_eq_of_armedCapture {x : Head} {c : Capture} : armedCapture x = some c ↔ x.slot = .armed c := by
  unfold armedCapture
  cases x.slot <;> simp

theorem armedCapture_eq_none {x : Head} : armedCapture x = none ↔ ∀ c, x.slot ≠ .armed c := by
  unfold armedCapture
  cases x.slot <;> simp

/-- A capture's notice and then the pending switch, on a head whose slot has just been freed or latched (R65). -/
theorem changes_completePendingCal (h : Fin 4) (a : Nat) (slot : Slot) (free : ∀ c, slot ≠ .armed c)
    (body : NoticeBody) (u : State) :
    ∃ y, HeadEnds (headAt u h) y
      ∧ Changes (putHead h y u) (completePendingCal h a (notify body (putHeadSlot h slot u))) := by
  have now : headAt (notify body (putHeadSlot h slot u)) h = { headAt u h with slot := slot } := by
    rw [headAt_notify, putHeadSlot, headAt_putHead_same]
  unfold completePendingCal
  rw [now]
  dsimp only
  cases pending : (headAt u h).pendingCal with
  | none => exact ⟨_, .freed slot free pending, changes_notify _ _⟩
  | some b =>
    refine ⟨_, .switched slot free b pending, ?_⟩
    dsimp only
    rw [putHead_notify, putHeadSlot, putHead_putHead]
    exact (changes_notify _ _).trans (changes_notify _ _)

theorem changes_abort {h : Fin 4} {c c' : Capture} {s : State} (reason : AbortReason) (slot : Slot)
    (free : ∀ c, slot ≠ .armed c) (ready : (headAt s h).status = .ready) (armed : (headAt s h).slot = .armed c)
    (same : c'.assembly = c.assembly) (prior : c'.prior = c.prior) (a : Nat) :
    Changes s (completePendingCal h a (abortCapture h c' reason slot s)) := by
  obtain ⟨y, ends, chain⟩ := changes_completePendingCal h a slot free
    (.captureAborted h c'.assembly c'.axis reason c'.prior c'.frames c'.history.length)
    (setState c.assembly c.prior s)
  rw [headAt_setState] at ends
  rw [abortCapture, same, prior]
  rw [same, prior] at chain
  exact chain.head (.capture <| .captureAborted h c y ready armed ends)

theorem changes_settleCapture {h : Fin 4} {c c' : Capture} {s : State} (ready : (headAt s h).status = .ready)
    (armed : (headAt s h).slot = .armed c) (same : c'.assembly = c.assembly) :
    Changes s (settleCapture h c' s) := by
  unfold settleCapture
  rw [same]
  cases record : recordAt s c.assembly with
  | none => exact .refl
  | some r =>
    have cleared : ∀ u : State,
        (if r.marked then clearedOtherwise u else u) = { u with sweep := lessMark r.marked u.sweep } := by
      intro u
      unfold lessMark clearedOtherwise
      split <;> rfl
    dsimp only
    rw [cleared]
    obtain ⟨y, ends, chain⟩ := changes_completePendingCal h c.assembly .latched (by simp)
      (.captureDone h c.assembly c'.axis (resultOf c'.axis (meanOf c'.history)) (meanOf c'.history)
        (c'.history.any (·.clamped)) c'.bank c'.frames (verdictOf (typeAt s r.type) (settledRecord h c' (typeAt s r.type) r))
        (settledRecord h c' (typeAt s r.type) r).state)
      (putAssembly c.assembly (settledRecord h c' (typeAt s r.type) r) { s with sweep := lessMark r.marked s.sweep })
    rw [headAt_putAssembly] at ends
    exact chain.head (.capture <| .captureSettled h c c' r y ready armed same record ends)

theorem putHeadSlot_putHeadSlot (h : Fin 4) (slot slot' : Slot) (s : State) :
    putHeadSlot h slot (putHeadSlot h slot' s) = putHeadSlot h slot s := by
  simp only [putHeadSlot, headAt_putHead_same, putHead_putHead]

/-- A settle does not look at what its own slot holds. -/
theorem settleCapture_putHeadSlot {s : State} {c : Capture} {r : Assembly} (record : recordAt s c.assembly = some r)
    (h : Fin 4) (slot : Slot) : settleCapture h c (putHeadSlot h slot s) = settleCapture h c s := by
  have latched : ∀ u : State, putHeadSlot h .latched (if r.marked then clearedOtherwise (putHeadSlot h slot u)
      else putHeadSlot h slot u) = putHeadSlot h .latched (if r.marked then clearedOtherwise u else u) := by
    intro u
    split
    next => exact putHeadSlot_putHeadSlot h .latched slot (clearedOtherwise u)
    next => exact putHeadSlot_putHeadSlot h .latched slot u
  have swap : ∀ r', putAssembly c.assembly r' (putHeadSlot h slot s) = putHeadSlot h slot (putAssembly c.assembly r' s) :=
    fun _ => rfl
  unfold settleCapture
  rw [recordAt_putHeadSlot, typeAt_putHeadSlot, record]
  dsimp only
  rw [swap, latched]

theorem afterReading_frames (depth : Nat) (reading : Option Sample) (c : Capture) :
    (afterReading depth reading c).frames = c.frames + 1 := by
  cases reading <;> rfl

theorem afterReading_kept (depth : Nat) (reading : Option Sample) (c : Capture) :
    (afterReading depth reading c).history.length ≤ depth ∨ (afterReading depth reading c).history = c.history := by
  cases reading with
  | none => exact .inr rfl
  | some x =>
    left
    simp only [afterReading, lastEntries, List.length_drop]
    omega

theorem afterReading_same (depth : Nat) (reading : Option Sample) (c : Capture) :
    afterReading depth reading c
      = { c with frames := (afterReading depth reading c).frames
                 history := (afterReading depth reading c).history } := by
  cases reading <;> rfl

/-- A reading settles the capture, times it out, or goes on with it; in every case the capture is the old one with the
reading in it (R82, R83, R86). -/
theorem readingEffect_cases (s : State) (h : Fin 4) (c : Capture) (reading : Option Sample) :
    ∃ c', c' = afterReading (calBankOf (headAt s h) c.bank).depth reading c
      ∧ (readingEffect s h c reading = .settled c'
        ∨ (64 ≤ c'.frames ∧ readingEffect s h c reading = .timedOut c')
        ∨ (c'.frames < 64 ∧ readingEffect s h c reading = .goesOn c')) := by
  refine ⟨_, rfl, ?_⟩
  unfold readingEffect
  dsimp only
  split
  next => exact .inl rfl
  next =>
    split
    next late => exact .inr (.inl ⟨late, rfl⟩)
    next early => exact .inr (.inr ⟨not_le.1 early, rfl⟩)

theorem changes_applyReading {h : Fin 4} {c : Capture} {s : State} (ready : (headAt s h).status = .ready)
    (armed : (headAt s h).slot = .armed c) (reading : Option Sample) :
    Changes s (applyReading h (readingEffect s h c reading) s) := by
  obtain ⟨c', def', settled | ⟨-, late⟩ | ⟨early, on⟩⟩ := readingEffect_cases s h c reading
  · have same : c'.assembly = c.assembly := by rw [def', afterReading_same]
    rw [settled]
    exact changes_settleCapture ready armed same
  · have same : c'.assembly = c.assembly := by rw [def', afterReading_same]
    have prior : c'.prior = c.prior := by rw [def', afterReading_same]
    rw [late]
    exact changes_abort .settleTimeout .latched (by simp) ready armed same prior c'.assembly
  · rw [on]
    have whole : c' = { c with frames := c'.frames, history := c'.history } := by
      rw [def']; exact afterReading_same _ _ _
    rw [applyReading, putHeadSlot, whole]
    refine .single (.head <| .readingEntered h c _ _ ready armed ?_ early ?_)
    · rw [def', afterReading_frames]; omega
    · rw [def']; exact afterReading_kept _ _ _

/-- A contact that passes checks 2 to 5 names a record that is free and not held (R79). -/
theorem contactChecks_inr {s : State} {h : Fin 4} {axis : Axis} {tag : Tag} {n : Nat} {r : Assembly}
    (passed : contactChecks s h axis tag = .inr (n, r)) :
    lookupTag s tag = some (n, r) ∧ isHeld s n = false ∧ contactable r.state = true
      ∧ axisRequired (typeAt s r.type) axis = true := by
  unfold contactChecks at passed
  split at passed
  next => cases passed
  next m r' found =>
    split_ifs at passed with held _ free required
    cases passed
    exact ⟨found, by simpa using held, by simpa using free, by simpa using required⟩

theorem lookupTag_record {s : State} {tag : Tag} {n : Nat} {r : Assembly} (found : lookupTag s tag = some (n, r)) :
    tableGet s.tagMap tag.toNat = some n ∧ recordAt s n = some r := by
  simp only [lookupTag, Option.bind_eq_some_iff, Option.map_eq_some_iff, Prod.mk.injEq] at found
  obtain ⟨m, bound, r', record, rfl, rfl⟩ := found
  exact ⟨bound, record⟩

theorem setState_of_record {s : State} {n : Nat} {r : Assembly} (record : recordAt s n = some r) (state : AsmState) :
    setState n state s = putAssembly n { r with state := state } s := by
  rw [setState, record]

theorem changes_takeContact {h : Fin 4} {s : State} (axis : Axis) (tag : Tag) (reading : Option Sample)
    (ready : (headAt s h).status = .ready) (idle : (headAt s h).slot = .idle) :
    Changes s (takeContact h axis tag reading s) := by
  have unarmed : armedCapture (headAt s h) = none := by rw [armedCapture, idle]
  unfold takeContact
  split
  next body _ =>
    exact (changes_notify _ _).head (.head <| .slotMoved h .latched ready unarmed (by simp))
  next n r passed =>
    obtain ⟨found, unheld, free, -⟩ := contactChecks_inr passed
    obtain ⟨-, record⟩ := lookupTag_record found
    dsimp only
    rw [setState_of_record record]
    generalize first : (⟨n, axis, r.state, (headAt s h).active, [], 0⟩ : Capture) = c
    obtain ⟨c', def', effect⟩ := readingEffect_cases
      (putHeadSlot h (.armed c) (putAssembly n { r with state := .measuring } s)) h c reading
    have depth : (calBankOf (headAt (putHeadSlot h (.armed c) (putAssembly n { r with state := .measuring } s)) h)
        c.bank).depth = (activeCal (headAt s h)).depth := by
      rw [putHeadSlot, headAt_putHead_same, headAt_putAssembly, ← first]
      cases active : (headAt s h).active <;> simp [activeCal, calBankOf, active]
    rw [depth] at def'
    have whole : c' = { c with frames := c'.frames, history := c'.history } := by
      rw [def']; exact afterReading_same _ _ _
    have armed : Change s (putHead h { headAt s h with slot := .armed c' }
        (putAssembly n { r with state := .measuring } s)) := by
      refine .capture <| .contactArmed h n r c' ready idle record unheld free ?_ ?_ ?_ ?_ ?_
      · rw [whole, ← first]
      · rw [whole, ← first]
      · rw [whole, ← first]
      · rw [def', afterReading_frames, ← first]
      · rw [def']
        rcases afterReading_kept (activeCal (headAt s h)).depth reading c with kept | kept
        · exact kept
        · rw [kept, ← first]; simp
    have replaced : ∀ x : Slot, putHeadSlot h x (putHeadSlot h (.armed c) (putAssembly n { r with state := .measuring } s))
        = putHead h { headAt s h with slot := x } (putAssembly n { r with state := .measuring } s) := by
      intro x
      rw [putHeadSlot, putHeadSlot, headAt_putHead_same, putHead_putHead, headAt_putAssembly]
    rcases effect with settled | ⟨late, -⟩ | ⟨-, on⟩
    · rw [settled]
      have named : recordAt (putAssembly n { r with state := .measuring } s) c'.assembly
          = some { r with state := .measuring } := by
        rw [whole, ← first, recordAt_putAssembly, if_pos rfl]
      rw [applyReading, settleCapture_putHeadSlot named, ← settleCapture_putHeadSlot named h (.armed c'), putHeadSlot,
        headAt_putAssembly]
      exact (changes_settleCapture (by rw [headAt_putHead_same]; exact ready) (by rw [headAt_putHead_same]) rfl).head
        armed
    · rw [def', afterReading_frames, ← first] at late
      simp at late
    · rw [on, applyReading, replaced]
      exact .single armed

/-- A frame that fails the monitor, as the end of its head's work (R51, R52). -/
theorem changes_referenceFault {h : Fin 4} {s : State} (k : SampleKind) (g : GaugeFrame)
    (ready : (headAt s h).status = .ready) : Changes s (referenceFault h k g s) := by
  unfold referenceFault
  cases slot : (headAt s h).slot with
  | armed c =>
    simp only [slot, abortCapture, headAt_notify, putHead_notify, putHeadSlot, headAt_putHead_same, putHead_putHead,
      headAt_setState]
    exact ((changes_notify _ _).trans (changes_notify _ _)).head (.capture <| .captureAborted h c _ ready slot (.faulted _))
  | idle =>
    simp only [slot]
    exact (changes_notify _ _).head (.head <| .headFaulted h _ ready (by rw [armedCapture, slot]))
  | latched =>
    simp only [slot]
    exact (changes_notify _ _).head (.head <| .headFaulted h _ ready (by rw [armedCapture, slot]))

theorem changes_discardGauge (h : Fin 4) (s : State) : Changes s (discardGauge h s) := .single (.head <| .gaugeCounted h)

theorem changes_readyContact {h : Fin 4} {s : State} (g : GaugeFrame) (tag : Tag)
    (ready : (headAt s h).status = .ready) : Changes s (readyContact h g tag s) := by
  unfold readyContact
  dsimp only
  split
  next => exact changes_referenceFault .contact g ready
  next =>
    split
    next axis _ _ =>
      cases slot : (headAt s h).slot with
      | idle => exact changes_takeContact axis tag _ ready slot
      | latched => exact .refl
      | armed c => exact .refl
    next => exact changes_discardGauge h s

/-- A recontact leaves its head READY. -/
theorem recontact_ready {h : Fin 4} {s : State} (ready : (headAt s h).status = .ready) :
    (headAt (recontact h s) h).status = .ready := by
  unfold recontact
  split
  next c _ =>
    unfold completePendingCal abortCapture
    dsimp only
    split
    next => simp [putHeadSlot, headAt_putHead, ready]
    next => simp [putHeadSlot, headAt_putHead, switchedTo, calibratedState, ready]
  all_goals exact ready

theorem changes_recontact {h : Fin 4} {s : State} (ready : (headAt s h).status = .ready) :
    Changes s (recontact h s) := by
  unfold recontact
  cases slot : (headAt s h).slot with
  | armed c => exact changes_abort .recontact .idle (by simp) ready slot rfl rfl c.assembly
  | idle => exact .refl
  | latched => exact .refl

theorem changes_gaugeContact (h : Fin 4) (g : GaugeFrame) (tag : Tag) (s : State) :
    Changes s (gaugeContact h g tag s) := by
  unfold gaugeContact
  split
  next => exact changes_notify _ _
  next => exact changes_discardGauge h s
  next ready => exact (changes_recontact ready).trans (changes_readyContact g tag (recontact_ready ready))

theorem changes_gaugeSample (h : Fin 4) (g : GaugeFrame) (s : State) : Changes s (gaugeSample h g s) := by
  unfold gaugeSample
  dsimp only
  split
  next => exact changes_discardGauge h s
  next => exact changes_discardGauge h s
  next ready =>
    split_ifs
    · exact changes_referenceFault .sample g ready
    · exact changes_discardGauge h s
    · cases slot : (headAt s h).slot with
      | armed c => exact changes_applyReading ready slot _
      | idle => exact .refl
      | latched => exact .refl

theorem changes_gaugeRelease (h : Fin 4) (g : GaugeFrame) (s : State) : Changes s (gaugeRelease h g s) := by
  unfold gaugeRelease
  dsimp only
  split
  next => exact changes_discardGauge h s
  next => exact changes_discardGauge h s
  next ready =>
    split_ifs
    · exact changes_referenceFault .release g ready
    · cases slot : (headAt s h).slot with
      | idle => exact .refl
      | latched => exact .single (.head <| .slotMoved h .idle ready (by rw [armedCapture, slot]) (by simp))
      | armed c => exact changes_abort .releasedEarly .idle (by simp) ready slot rfl rfl c.assembly

theorem changes_gaugeFrame (h : Fin 4) (k : SampleKind) (g : GaugeFrame) (tag : Tag) (s : State) :
    Changes s (gaugeFrame h k g tag s) := by
  cases k with
  | contact => exact changes_gaugeContact h g tag s
  | sample => exact changes_gaugeSample h g s
  | release => exact changes_gaugeRelease h g s

end Sys2Proof.Transitions

/-! PROOFS. The other frames and the engines of the part as chains of changes. -/

namespace Sys2Proof.Transitions

open Sys2Proof Sys2Proof.Machine

/-! ## Evaluation and review -/

/-- An evaluation changes the assembly table and the heads only. -/
theorem evaluate_frame (n : Nat) (s : State) :
    evaluate n s = { s with assemblies := (evaluate n s).assemblies, heads := (evaluate n s).heads } := by
  unfold evaluate
  split
  next => rfl
  next => dsimp only; split <;> rfl

theorem recordAt_evaluate_same {n : Nat} {r : Assembly} {s : State} (record : recordAt s n = some r) :
    recordAt (evaluate n s) n = some (evaluated (typeAt s r.type) r) := by
  unfold evaluate
  rw [record]
  dsimp only
  split <;> exact tableGet_tableSet_same _ _ _

theorem recordAt_evaluate_other {n m : Nat} (s : State) (other : m ≠ n) :
    recordAt (evaluate n s) m = recordAt s m := by
  unfold evaluate
  split
  next => rfl
  next => dsimp only; split <;> exact tableGet_tableSet_other _ _ other

theorem reviewOnDemand_marked {n : Nat} {r : Assembly} {s : State} (record : recordAt s n = some r)
    (marked : r.marked = true) : reviewOnDemand n s = clearedOtherwise (evaluate n s) := by
  rw [reviewOnDemand, if_pos (by rw [record]; exact marked)]

theorem reviewOnDemand_unmarked {n : Nat} {s : State} (unmarked : ∀ r, recordAt s n = some r → r.marked = false) :
    reviewOnDemand n s = s := by
  refine if_neg ?_
  cases record : recordAt s n with
  | none => simp
  | some r => simp [unmarked r record]

theorem changes_reviewOnDemand (n : Nat) (s : State) : Changes s (reviewOnDemand n s) := by
  cases record : recordAt s n with
  | none => rw [reviewOnDemand_unmarked (by simp [record])]
  | some r =>
    cases marked : r.marked with
    | true => rw [reviewOnDemand_marked record marked]; exact .single (.capture <| .recordReviewed n r record marked)
    | false => rw [reviewOnDemand_unmarked (by simp [record, marked])]

/-- A review changes the assembly table, the heads and the sweep only. -/
theorem reviewOnDemand_frame (n : Nat) (s : State) :
    reviewOnDemand n s
      = { s with
          assemblies := (reviewOnDemand n s).assemblies, heads := (reviewOnDemand n s).heads
          sweep := (reviewOnDemand n s).sweep } := by
  unfold reviewOnDemand
  split
  next => rw [evaluate_frame]; rfl
  next => rfl

/-- The record that a review leaves: evaluated when it was marked, and in both cases unmarked. -/
theorem recordAt_reviewOnDemand {n : Nat} {r : Assembly} {s : State} (record : recordAt s n = some r) :
    recordAt (reviewOnDemand n s) n = some (if r.marked then evaluated (typeAt s r.type) r else r) := by
  cases marked : r.marked with
  | true => rw [reviewOnDemand_marked record marked, recordAt_clearedOtherwise, recordAt_evaluate_same record]; rfl
  | false => rw [reviewOnDemand_unmarked (by simp [record, marked]), record]; rfl

@[simp] theorem typeAt_reviewOnDemand (n : Nat) (s : State) : typeAt (reviewOnDemand n s) = typeAt s := by
  rw [reviewOnDemand_frame]; rfl

@[simp] theorem machineAt_reviewOnDemand (n : Nat) (s : State) : machineAt (reviewOnDemand n s) = machineAt s := by
  rw [reviewOnDemand_frame]; rfl

@[simp] theorem occupant_reviewOnDemand (n : Nat) (s : State) : occupant (reviewOnDemand n s) = occupant s := by
  rw [reviewOnDemand_frame]; rfl

@[simp] theorem isHeld_reviewOnDemand (n : Nat) (s : State) : isHeld (reviewOnDemand n s) = isHeld s := by
  rw [reviewOnDemand_frame]; rfl

@[simp] theorem tagMap_reviewOnDemand (n : Nat) (s : State) : (reviewOnDemand n s).tagMap = s.tagMap := by
  rw [reviewOnDemand_frame]

@[simp] theorem answers_reviewOnDemand (n : Nat) (s : State) : (reviewOnDemand n s).answers = s.answers := by
  rw [reviewOnDemand_frame]

theorem evaluated_marked (t : TypeRecord) (r : Assembly) : (evaluated t r).marked = false := by
  unfold evaluated
  cases r.state <;> rfl

/-! ## The audit generator (R114) -/

theorem auditStep_getLsbD_succ (v : BitVec 15) {k : Nat} (low : k < 14) :
    (auditStep v).getLsbD (k + 1) = v.getLsbD k := by
  rw [BitVec.getLsbD_eq_getElem (show k < 15 by omega), auditStep]
  split <;> simp [show k + 1 < 15 by omega]

theorem auditStep_getLsbD_zero (v : BitVec 15) :
    (auditStep v).getLsbD 0 = (v.getLsbD 14 ^^ v.getLsbD 13) := by
  unfold auditStep
  split <;> simp_all

/-- The generator does not lose its last 1: a zero result has zero places 0 to 13 before it, and then place 14 too. -/
theorem auditStep_ne_zero {v : BitVec 15} (nonzero : v ≠ 0) : auditStep v ≠ 0 := by
  intro zero
  have low : ∀ k < 14, v.getLsbD k = false := fun k hk => by rw [← auditStep_getLsbD_succ v hk, zero]; simp
  have top : v.getLsbD 14 = false := by
    have := auditStep_getLsbD_zero v
    rw [zero, low 13 (by omega)] at this
    simpa using this.symm
  refine nonzero (BitVec.eq_of_getLsbD_eq fun k hk => ?_)
  rcases Nat.lt_or_ge k 14 with h | h
  · simpa using low k h
  · obtain rfl : k = 14 := by omega
    simpa using top

/-! ## TAG frames -/

/-- What a taken TAG frame comes to: a chain of changes and one answer. -/
def ChangesThenAnswers (s t : State) : Prop := ∃ u a, Changes s u ∧ t = pushAnswer a u

theorem issueRefusal_eq_none {s : State} {tag : Tag} {p : Place} {n : Nat} {r : Assembly}
    (granted : issueRefusal s tag p n r = none) :
    r.state = .preset ∧ ∃ x, machineAt s p.machine = some x ∧ x.defined = true ∧ 1 ≤ p.pocket
      ∧ p.pocket ≤ x.magazine ∧ occupant s p = none := by
  unfold issueRefusal at granted
  dsimp only at granted
  split_ifs at granted with notReady spent
  split at granted
  next => cases granted
  next x found =>
    obtain ⟨machine, defined⟩ := Option.filter_eq_some_iff.1 found
    split_ifs at granted with bad
    refine ⟨by simpa using notReady, x, machine, defined, ?_, ?_, Option.map_eq_none_iff.1 granted⟩ <;> omega

theorem changes_takeIssue (c : Fin 4) (tag : Tag) (p : Place) (s : State) :
    ChangesThenAnswers s (takeIssue c tag p s) := by
  unfold takeIssue
  split
  next => exact ⟨_, _, .refl, rfl⟩
  next n r found =>
    obtain ⟨-, record⟩ := lookupTag_record found
    split
    next => exact ⟨_, _, .refl, rfl⟩
    next unheld =>
      have reviewed := recordAt_reviewOnDemand record
      dsimp only
      rw [reviewed]
      dsimp only [Option.getD_some]
      generalize (if r.marked = true then evaluated (typeAt s r.type) r else r) = r' at reviewed ⊢
      split
      next answer _ => exact ⟨_, _, changes_reviewOnDemand n s, rfl⟩
      next granted =>
        obtain ⟨preset, x, machine, defined, low, high, empty⟩ := issueRefusal_eq_none granted
        have issued : Changes s (grantIssue p n r' (reviewOnDemand n s)) :=
          (changes_reviewOnDemand n s).tail (.record <| .recordIssued p n r' x reviewed (by simpa using unheld) preset machine
            defined low high empty)
        refine ⟨_, _, issued.trans ?_, rfl⟩
        unfold pushOnIssue
        split
        next => exact changes_placeRequest _ _ _ _
        next => exact .refl

theorem changes_acceptReturn {n : Nat} {r : Assembly} {s : State} (counter : Option (Fin 4))
    (record : recordAt s n = some r) (out : outOfCrib r.state = true) :
    Changes s (acceptReturn n r counter s) := by
  have back : Changes s (putAssembly n
      (returnedRecord (returnOutcome (typeAt s r.type) r (auditStep s.audit).toNat) r)
      { s with
        issueMap := tableEraseValue s.issueMap n, audit := auditStep s.audit
        handoff := s.handoff.map (voidedFor n) }) :=
    ((Relation.ReflTransGen.single (.record <| .recordReturned n r (auditStep s.audit).toNat record out)).tail
      (.line <| .auditSet (auditStep s.audit) auditStep_ne_zero)).tail (.line <| .framesVoided n)
  unfold acceptReturn
  dsimp only
  split
  next => exact back.trans (changes_notify _ _)
  next => exact back

theorem changes_takeReturn (c : Fin 4) (tag : Tag) (s : State) : ChangesThenAnswers s (takeReturn c tag s) := by
  unfold takeReturn
  split
  next => exact ⟨_, _, .refl, rfl⟩
  next n r found =>
    split
    next => exact ⟨_, _, .refl, rfl⟩
    next out => exact ⟨_, _, changes_acceptReturn (some c) (lookupTag_record found).2 (by simpa using out), rfl⟩

/-! ## Hall frames, transit and the guard -/

theorem changes_takeUsage {n : Nat} {r : Assembly} {s : State} (p : Place) (u : UsageReport)
    (record : recordAt s n = some r) : Changes s (takeUsage n p u r s) := by
  unfold takeUsage
  dsimp only
  split
  next reason found =>
    unfold withdraw
    have out : r.state = .issued ∨ r.state = .inService := by
      by_contra other
      rw [if_neg other] at found
      cases found
    exact ((changes_notify _ _).trans (changes_placeRequest _ _ _ _)).head
      (.record <| .recordWithdrawn n r u reason record out)
  next => exact .single (.record <| .recordUsed n r u record)

theorem changes_usageMismatched (m : Nat) (u : UsageReport) (s : State) : Changes s (usageMismatched m u s) :=
  (changes_notify _ _).head (.line .mismatchCounted)

theorem changes_reportUsage (m : Nat) (report : UsageReport) (s : State) : Changes s (reportUsage m report s) := by
  unfold reportUsage
  dsimp only
  split
  next =>
    split
    next r record => exact changes_takeUsage _ _ record
    next => exact changes_usageMismatched m _ s
  next => exact changes_usageMismatched m _ s

theorem changes_guardToolData (m src : Nat) (payload : List Byte) (s : State) :
    Changes s (guardToolData m src payload s) := by
  unfold guardToolData
  split
  next => exact .single (.line <| .lineCounted .crib .malformed)
  next =>
    split
    next => exact (changes_notify _ _).head (.line .guardCounted)
    next => exact changes_enterTransit _ _ _

/-! ## The engines -/

theorem changes_completeCrib {src : CribSource} {f : Frame} {s : State}
    (sending : s.cribEgress.sending = some (src, f)) : Changes s (completeCrib src s) :=
  .single (.line <| .cribSent src f sending)

theorem changes_completeHall {src : HallSource} {f : Frame} {s : State}
    (sending : s.hallEgress.sending = some (src, f)) : Changes s (completeHall src s) := by
  cases src with
  | transit => exact .single (.line <| .hallTransitSent f sending)
  | handoff =>
    have sent := Change.line <| .handoffSent f sending
    cases frames : s.handoff with
    | nil =>
      rw [frames] at sent
      simp only [completeHall, frames]
      exact .single sent
    | cons first rest =>
      rw [frames] at sent
      simp only [completeHall, frames]
      have served : ∀ u, Changes u (enterService first u) := by
        intro u
        unfold enterService
        split
        next n _ _ _ _ =>
          split
          next => exact .refl
          next r record =>
            split
            next issued => exact .single (.record <| .serviceEntered n r record issued.1)
            next => exact .refl
        next => exact .refl
      exact (served _).head sent

theorem nextTake_some {s : State} {e : WaitEntry} (next : nextTake s = some e) :
    s.handoff.length < 4 ∧ e ∈ s.waitList ∧ eligible s e = true := by
  unfold nextTake at next
  split at next
  next room => exact ⟨room, List.mem_of_find?_eq_some next, List.find?_some next⟩
  next => cases next

theorem changes_takeEntry {e : WaitEntry} {s : State} (next : nextTake s = some e) : Changes s (takeEntry e s) := by
  have drains : takeEntry e s = if e.marked then drainSwitch e.machine (entryMoved e s) else entryMoved e s := rfl
  rw [drains]
  split
  next marked =>
    unfold drainSwitch
    have still : machineAt (entryMoved e s) = machineAt s := rfl
    rw [still]
    cases machine : machineAt s e.machine with
    | none => exact .single (.machine <| .entryTaken e next fun _ => by rw [machine]; rfl)
    | some x =>
      dsimp only
      cases switch : x.switch with
      | none => exact .single (.machine <| .entryTaken e next fun _ => by rw [machine]; exact switch)
      | some w =>
        have taken : Change s (putMachine e.machine (drained x w) (entryMoved e s)) :=
          .machine <| .markTaken e x w next marked machine switch
        unfold drained at taken
        dsimp only
        split_ifs at taken ⊢
        · exact (changes_notify _ _).head taken
        · exact .single taken
  next plain => exact .single (.machine <| .entryTaken e next fun marked => absurd marked plain)

theorem changes_endSweep {s : State} (running : s.sweep.state = .running) (done : nextMarked s = none) :
    Changes s (endSweep s) :=
  (changes_notify _ _).head (.sweepEnded running done)

theorem changes_engineStep {s : State} (running : s.sweep.state = .running) : Changes s (engineStep s) := by
  unfold engineStep
  split
  next n next => exact .single (.capture <| .recordSwept n running next)
  next done => exact changes_endSweep running done

end Sys2Proof.Transitions

/-! PROOFS. The owners of the management requests as chains of changes. -/

namespace Sys2Proof.Transitions

open Sys2Proof Sys2Proof.Machine

/-- A request's owner makes a chain of changes, the protection check having been passed where `guarded` says so. -/
def OwnerChanges (guarded : Bool) (owner : State → Taken) : Prop :=
  ∀ s, (guarded = true → protectionPasses s = true) → Changes s (owner s).state

@[simp] theorem replied_state (s : State) (status : Status) (body : ReplyBody) : (replied s status body).state = s := rfl

@[simp] theorem effected_state (s : State) (body : ReplyBody) : (effected s body).state = s := rfl

@[simp] theorem refusedAssembly_state (n : Nat) (status : Status) (s : State) :
    (refusedAssembly n status s).state = s := rfl

/-! ## Requests outside the protection check -/

theorem ownClearStatus_changes : OwnerChanges false ownClearStatus := by
  intro s _
  unfold ownClearStatus
  split
  next => exact .single (.line <| .errorMarked false)
  next => exact .refl

theorem ownReadType_state (t : Nat) (s : State) : (ownReadType t s).state = s := by
  unfold ownReadType
  split <;> rfl

theorem ownReadCal_state (head bank : Nat) (s : State) : (ownReadCal head bank s).state = s := by
  unfold ownReadCal
  split <;> rfl

theorem ownReadProfile_state (m bank : Nat) (s : State) : (ownReadProfile m bank s).state = s := by
  unfold ownReadProfile
  split <;> rfl

theorem ownReadPockets_state (m first count : Nat) (s : State) : (ownReadPockets m first count s).state = s := by
  unfold ownReadPockets
  split
  next => rfl
  next => split <;> rfl

theorem ownReadAssemblies_state (start count : Nat) (s : State) : (ownReadAssemblies start count s).state = s := by
  unfold ownReadAssemblies
  split <;> rfl

/-- An owner that leaves the state as it is. -/
theorem ownerChanges_of_still {guarded : Bool} {owner : State → Taken} (still : ∀ s, (owner s).state = s) :
    OwnerChanges guarded owner := fun s _ => by rw [still]

theorem ownSetPaused_changes (m : Nat) (paused : Bool) : OwnerChanges false (ownSetPaused m paused) := by
  intro s _
  unfold ownSetPaused
  split
  next => exact .refl
  next x machine =>
    split_ifs with undefined
    · exact .refl
    · exact .refl
    · exact .single (.machine <| .pausedSet m x paused machine (by simpa using undefined))

theorem ownMoveSweep_changes {source target : SweepState} (busy : source ≠ .idle) (stays : target ≠ .idle) :
    OwnerChanges false (ownMoveSweep source target) := by
  intro s _
  unfold ownMoveSweep
  split
  next now => exact .single (.sweepMoved target (now ▸ busy) stays)
  next => exact .refl

/-! ## Calibration and heads -/

theorem ownWriteCal_changes (head bank : Nat) (body : CalBody) : OwnerChanges true (ownWriteCal head bank body) := by
  intro s _
  unfold ownWriteCal
  split
  next h b _ _ =>
    dsimp only
    split
    next => exact .refl
    next content _ =>
      split_ifs with inUse targeted same
      · exact .refl
      · exact .refl
      · exact .refl
      · exact .single (.head <| .calWritten h b content inUse targeted)
  next => exact .refl

theorem calValid_of_reason {b : CalBank} (sound : calReason b = none) : calValid b = true := by
  rw [calValid, sound]; rfl

theorem ownSwitchCal_changes (head bank : Nat) : OwnerChanges true (ownSwitchCal head bank) := by
  intro s _
  unfold ownSwitchCal
  split
  next h b _ _ =>
    dsimp only
    split
    next => exact .single (.head <| .calCancelled h)
    next other =>
      split
      next => exact .refl
      next sound =>
        split
        next => exact .refl
        next =>
          have valid := calValid_of_reason sound
          split
          next c armed => exact .single (.head <| .calRequested h b c other valid armed)
          next idle =>
            exact (changes_notify _ _).head (.head <| .calSwitched h b valid (by rw [armedCapture, idle]))
          next latched =>
            exact (changes_notify _ _).head (.head <| .calSwitched h b valid (by rw [armedCapture, latched]))
  next => exact .refl

theorem ownCancelCal_changes (head : Nat) : OwnerChanges true (ownCancelCal head) := by
  intro s _
  unfold ownCancelCal
  split
  next h _ =>
    dsimp only
    split
    next => exact .refl
    next => exact (changes_notify _ _).head (.head <| .calCancelled h)
  next => exact .refl

theorem ownHeadRestore_changes (head : Nat) : OwnerChanges true (ownHeadRestore head) := by
  intro s _
  unfold ownHeadRestore
  split
  next h _ =>
    dsimp only
    split
    next record fault => exact .single (.head <| .headRestored h record fault)
    next => exact .refl
    next => exact .refl
  next => exact .refl

/-! ## Machines and profiles -/

theorem ownDefineMachine_changes (m : Nat) (b : MachineBody) : OwnerChanges true (ownDefineMachine m b) := by
  intro s _
  unfold ownDefineMachine
  split
  next => exact .refl
  next x machine =>
    split
    next defined push _ _ =>
      split_ifs with small same inUse occupied
      · exact .refl
      · exact .refl
      · exact .refl
      · exact .refl
      · refine .single (.machine <| .machineStored m x defined b.magazine push machine (by omega) (by omega) ?_ ?_)
        · intro was now
          refine ⟨by simpa using fun h => inUse ⟨was, now, .inl h⟩, ?_⟩
          simpa using fun h => inUse ⟨was, now, .inr h⟩
        · intro was now less
          simpa using fun h => occupied ⟨was, now, less, h⟩
    next => exact .refl

theorem storedSlots?_length {slots : List SlotBody} {stored : List OutputSlot}
    (h : storedSlots? slots = some stored) : stored.length = slots.length := by
  induction slots generalizing stored with
  | nil => cases h; rfl
  | cons b rest ih =>
    unfold storedSlots? at h
    split at h
    next xs _ found => cases h; simp [ih found]
    next => cases h

theorem storedProfile?_short {b : ProfileBody} {content : Profile} (h : storedProfile? b = some content) :
    content.slots.length ≤ 12 := by
  unfold storedProfile? at h
  split at h
  next sound =>
    obtain ⟨few, count, -⟩ := sound
    obtain ⟨slots, found, rfl⟩ := Option.map_eq_some_iff.1 h
    have := storedSlots?_length found
    show slots.length ≤ 12
    omega
  next => cases h

theorem ownWriteProfile_changes (m bank : Nat) (body : ProfileBody) :
    OwnerChanges true (ownWriteProfile m bank body) := by
  intro s _
  unfold ownWriteProfile
  split
  next x b machine _ =>
    split
    next => exact .refl
    next content stored =>
      split_ifs with inUse targeted same
      · exact .refl
      · exact .refl
      · exact .refl
      · refine .single (.machine <| .profileStored m x b content machine (storedProfile?_short stored) ?_)
        intro w switch target
        by_contra other
        exact targeted ⟨other, by simp [switch, target]⟩
  next => exact .refl

theorem profileValid_of_reason {p : Profile} (sound : profileReason p = none) : profileValid p = true := by
  rw [profileValid, sound]; rfl

theorem ownSwitchProfile_changes (m bank : Nat) : OwnerChanges true (ownSwitchProfile m bank) := by
  intro s _
  unfold ownSwitchProfile
  split
  next x b machine _ =>
    split
    next => exact .single (.machine <| .profileCancelled m x machine)
    next other =>
      split
      next => exact .refl
      next sound =>
        split_ifs with targeted idle
        · exact .refl
        · exact (changes_notify _ _).head (.machine <| .profileSwitched m x b machine idle)
        · exact .single (.machine <| .profileRequested m x b machine other (profileValid_of_reason sound) idle)
  next => exact .refl

theorem ownCancelProfile_changes (m : Nat) : OwnerChanges true (ownCancelProfile m) := by
  intro s _
  unfold ownCancelProfile
  split
  next => exact .refl
  next x machine =>
    split
    next => exact .refl
    next w switch =>
      have cancelled := Change.machine <| .profileCancelled m x machine
      rw [switch] at cancelled
      exact (changes_notify _ _).head cancelled

/-! ## Assembly records -/

/-- An owner behind checks 1 and 2 of R12. -/
theorem onAssembly_changes {n : Nat} {owner : State → Taken}
    (free : ∀ s, n ≤ 1023 → isHeld s n = false → Changes s (owner s).state) : OwnerChanges true (onAssembly n owner) := by
  intro s _
  unfold onAssembly
  split_ifs with high held
  · exact .refl
  · exact .single (.line <| .errorMarked true)
  · exact free s (by omega) (by simpa using held)

theorem ownCreate_changes (n t : Nat) (tag : Option Tag) : OwnerChanges true (ownCreate n t tag) := by
  refine onAssembly_changes fun s low _ => ?_
  split_ifs with occupied unusable bound
  · exact .refl
  · exact .refl
  · exact .refl
  · refine .single (.record <| .recordCreated n t tag low (by simpa using occupied) (by simpa using unusable) ?_)
    rintro x rfl
    simpa using bound

/-- What a well-formed RESTORE body describes: its type, tag and location, no mark, and the presences that its state
asks for (R14, R15). -/
theorem describedRecord?_spec {b : RestoreBody} {r : Assembly} (described : describedRecord? b = some r) :
    r.type = b.type ∧ r.tag = b.tag ∧ r.location = b.location ∧ r.marked = false ∧ r.state ≠ .measuring
      ∧ r.state ≠ .partly ∧ r.location.isSome = outOfCrib r.state
      ∧ (r.state = .withdrawn → r.reason.isSome = true)
      ∧ (r.reason.isSome = true → r.state = .withdrawn ∨ r.state = .retired) := by
  simp only [describedRecord?, Option.bind_eq_bind, Option.bind_eq_some_iff] at described
  obtain ⟨target, asked, length, -, radius, -, recheck, -, reason, -, made⟩ := described
  split at made
  next presences =>
    cases made
    simp only [restoreTarget?, Option.filter_eq_some_iff, decide_eq_true_eq] at asked
    simp only [targetPresences, Bool.and_eq_true, Bool.or_eq_true, decide_eq_true_eq, Option.isNone_iff_eq_none] at presences
    obtain ⟨-, notMeasuring, notPartly⟩ := asked
    obtain ⟨⟨⟨-, withdrawn⟩, other⟩, location⟩ := presences
    refine ⟨rfl, rfl, rfl, rfl, notMeasuring, notPartly, location, fun is => ?_, fun some => ?_⟩
    · exact withdrawn.resolve_left (by simpa using is)
    · rcases other with is | none
      · exact is
      · simp [none] at some
  next => cases made

/-- The evaluation of a restored record touches its state, inside or outside the crib, and its recheck flag (R15). -/
theorem restoredRecord_fixes (t : TypeRecord) {r : Assembly} (unmarked : r.marked = false) :
    (restoredRecord t r).type = r.type ∧ (restoredRecord t r).tag = r.tag
      ∧ (restoredRecord t r).location = r.location ∧ (restoredRecord t r).reason = r.reason
      ∧ (restoredRecord t r).marked = false := by
  unfold restoredRecord evaluated
  cases r.state <;> exact ⟨rfl, rfl, rfl, rfl, by simp [unmarked]⟩

theorem ownRestore_changes (n : Nat) (b : RestoreBody) : OwnerChanges true (ownRestore n b) := by
  refine onAssembly_changes fun s low unheld => ?_
  dsimp only
  split
  next => exact .refl
  next irreplaceable =>
    split
    next => exact .refl
    next r described =>
      obtain ⟨type, tag, location, unmarked, -⟩ := describedRecord?_spec described
      obtain ⟨type', tag', location', -⟩ := restoredRecord_fixes (typeAt s b.type) unmarked
      split
      next => exact .refl
      next usable =>
        split
        next => exact .refl
        next bound =>
          split
          next => exact .refl
          next placed =>
            split
            next => exact .refl
            next =>
              rw [effected_state, tag', tag, type', type, location', location]
              refine .single (.record <| .recordRestored n b r low unheld ?_ described (by simpa using usable) ?_ placed)
              · intro old record
                rw [record] at irreplaceable
                simpa using irreplaceable
              · rintro x tagged
                rw [tagged] at bound
                simpa using bound

/-- An edit behind checks 1 to 4 of R16: its action meets a reviewed record. -/
theorem onEdit_changes {n : Nat} {check : State → Assembly → Option Status} {action : Assembly → State → Taken}
    (acts : ∀ s u r old, recordAt s n = some old → inCrib old.state = true → check s old = none →
      u = reviewOnDemand n s → recordAt u n = some r → r.marked = false →
      r = (if old.marked then evaluated (typeAt s old.type) old else old) → Changes u (action r u).state) :
    OwnerChanges true (onEdit n check action) := by
  refine onAssembly_changes fun s low unheld => ?_
  split
  next => exact .refl
  next old record =>
    split_ifs with out
    · exact .refl
    split
    next => exact .refl
    next passed =>
      dsimp only
      have reviewed := recordAt_reviewOnDemand record
      rw [reviewed]
      refine (changes_reviewOnDemand n s).trans (acts s _ _ old record (by simpa using out) passed rfl reviewed ?_ rfl)
      split
      next => exact evaluated_marked _ _
      next unmarked => simpa using unmarked

theorem evaluated_fixes (t : TypeRecord) (r : Assembly) :
    (evaluated t r).type = r.type ∧ (evaluated t r).tag = r.tag ∧ (evaluated t r).location = r.location
      ∧ (evaluated t r).reason = r.reason := by
  unfold evaluated
  cases r.state <;> exact ⟨rfl, rfl, rfl, rfl⟩

theorem outcomeOf_inCrib (t : TypeRecord) (r : Assembly) (start : AsmState) :
    inCrib (outcomeOf t r start) = true := by
  unfold outcomeOf
  split
  next => rfl
  next => rfl
  next => rfl
  next => rfl
  next => split_ifs <;> rfl

theorem evaluated_inCrib {t : TypeRecord} {r : Assembly} (crib : inCrib r.state = true) :
    inCrib (evaluated t r).state = true := by
  unfold evaluated
  cases state : r.state
  case built | partly | preset | rejected | remeasure => exact outcomeOf_inCrib t r _
  all_goals simp_all [inCrib]

theorem ownChangeType_changes (n t : Nat) : OwnerChanges true (ownChangeType n t) := by
  refine onEdit_changes fun s u r old record crib passed review reviewed unmarked left => ?_
  unfold changeTypeAction
  split
  next => exact .refl
  next =>
    refine .single (.record <| .recordRetyped n t r reviewed ?_ ?_ unmarked)
    · rw [left]; split
      next => exact evaluated_inCrib crib
      next => exact crib
    · have usable : typeUsable s t = true := by
        by_contra h
        rw [if_neg h] at passed
        cases passed
      rw [review]
      simpa [typeUsable] using usable

/-- What a passed BIND_TAG leaves to bind: a tag that stands at no other assembly, on a record without another. -/
theorem bindTagCheck_eq_none {n : Nat} {tag : Tag} {s : State} {r : Assembly} (passed : bindTagCheck n tag s r = none) :
    boundElsewhere s n tag = false ∧ ∀ x, r.tag = some x → x = tag := by
  unfold bindTagCheck at passed
  split at passed
  next => cases passed
  next unbound =>
    split at passed
    next => cases passed
    next same =>
      refine ⟨by simpa using unbound, fun x tagged => ?_⟩
      rw [tagged] at same
      simpa using same

theorem bindTag_changes (n : Nat) (tag : Tag) :
    OwnerChanges true (onEdit n (bindTagCheck n tag) (bindTagAction n tag)) := by
  refine onEdit_changes fun s u r old record crib passed review reviewed unmarked left => ?_
  obtain ⟨unbound, same⟩ := bindTagCheck_eq_none passed
  have tags : r.tag = old.tag := by
    rw [left]; split
    next => exact (evaluated_fixes _ _).2.1
    next => rfl
  unfold bindTagAction
  split
  next => exact .refl
  next other =>
    refine .single (.record <| .tagBound n r tag reviewed ?_ ?_)
    · cases tagged : r.tag with
      | none => rfl
      | some x => exact absurd (by rw [tagged, same x (tags ▸ tagged)]) other
    · rw [review]
      simpa [boundElsewhere] using unbound

theorem unbindTag_changes (n : Nat) : OwnerChanges true (onEdit n (fun _ _ => none) (unbindTagAction n)) := by
  refine onEdit_changes fun s u r old record crib passed review reviewed unmarked left => ?_
  unfold unbindTagAction
  split
  next => exact .refl
  next => exact .single (.record <| .tagUnbound n r reviewed)

theorem rebuild_changes (n : Nat) :
    OwnerChanges true
      (onEdit n (fun _ r => if r.state = .retired then none else some .state) (rebuildAction n)) := by
  refine onEdit_changes fun s u r old record crib passed review reviewed unmarked left => ?_
  refine .single (.record <| .recordRebuilt n r reviewed ?_)
  have retired : old.state = .retired := by
    by_contra h
    rw [if_neg h] at passed
    cases passed
  rw [left]
  split
  next => simp [evaluated, retired]
  next => exact retired

theorem ownDelete_changes (n : Nat) : OwnerChanges true (ownDelete n) := by
  refine onAssembly_changes fun s low _ => ?_
  split
  next => exact .refl
  next r record =>
    split_ifs with out
    · exact .refl
    · exact .single (.record <| .recordDeleted n r record (by simpa using out))

theorem ownForceReturn_changes (n : Nat) : OwnerChanges true (ownForceReturn n) := by
  intro s _
  unfold ownForceReturn
  split
  next => exact .refl
  next =>
    split
    next => exact .refl
    next r record =>
      split
      next => exact .refl
      next out => exact changes_acceptReturn none record (by simpa using out)

/-! ## Types, windows, the generator and the mode -/

theorem typeInRange_legal {b : TypeBody} (range : typeInRange b = true) (t : TypeRecord)
    (fields : t.nominalL = b.nominalL ∧ t.lowerL = b.lowerL ∧ t.upperL = b.upperL ∧ t.nominalR = b.nominalR
      ∧ t.lowerR = b.lowerR ∧ t.upperR = b.upperR ∧ t.band = b.band ∧ t.lengthWearLimit = b.lengthWearLimit
      ∧ t.radiusWearLimit = b.radiusWearLimit) (threshold : t.auditThreshold ≤ 32767) : TypeLegal t := by
  obtain ⟨e1, e2, e3, e4, e5, e6, e7, e8, e9⟩ := fields
  simp only [typeInRange, Bool.and_eq_true, decide_eq_true_eq, and_assoc] at range
  simp only [TypeLegal, e1, e2, e3, e4, e5, e6, e7, e8, e9]
  tauto

theorem storedType?_spec {b : TypeBody} {inUse : Nat} {new : TypeRecord} (stored : storedType? b inUse = some new) :
    TypeLegal new ∧ new.inUse = inUse := by
  unfold storedType? at stored
  split at stored
  next range =>
    cases stored
    exact ⟨typeInRange_legal range _ ⟨rfl, rfl, rfl, rfl, rfl, rfl, rfl, rfl, rfl⟩ (Nat.min_le_right _ _), rfl⟩
  next => cases stored

theorem ownWriteType_changes (t : Nat) (body : TypeBody) : OwnerChanges true (ownWriteType t body) := by
  intro s _
  unfold ownWriteType
  dsimp only
  split
  next => exact .refl
  next low =>
    split
    next => exact .refl
    next idle =>
      split
      next => exact .refl
      next new stored =>
        obtain ⟨legal, counted⟩ := storedType?_spec stored
        split
        next => exact .refl
        next =>
          split
          next => exact .refl
          next unused =>
            have kept : new.defined = true ∨ (typeAt s t).inUse = 0 := by
              cases defined : new.defined
              · exact .inr (by by_contra h; exact unused ⟨defined, by omega⟩)
              · exact .inl rfl
            rw [effected_state]
            split
            next => exact .single (.type <| .typeJudged t new (by omega) (by simpa using idle) legal counted kept)
            next untouched => exact .single (.type <| .typeStored t new (by omega) legal counted kept (by simpa using untouched))

theorem storedWindow?_legal {b : HoldBody} {w : HoldWindow} (stored : storedWindow? b = some w) : WindowLegal w := by
  unfold storedWindow? at stored
  split at stored
  next =>
    split at stored
    next range =>
      cases stored
      exact ⟨(Nat.sub_le _ _).trans range.1, range.2, Nat.sub_mod_eq_zero_of_mod_eq (Nat.mod_mod _ _).symm⟩
    next => cases stored
  next => cases stored

/-- WRITE_HOLDS leaves the state, or stores one legal window (R21). -/
theorem ownWriteHolds_cases (w : Nat) (b : HoldBody) (s : State) :
    ((ownWriteHolds w b s).state = s ∧ (ownWriteHolds w b s).changed = false)
      ∨ ∃ new, WindowLegal new ∧ (ownWriteHolds w b s).state = { s with holds := s.holds.setIfInBounds w new }
          ∧ (ownWriteHolds w b s).changed = true := by
  unfold ownWriteHolds
  split
  next => exact .inl ⟨rfl, rfl⟩
  next =>
    split
    next => exact .inl ⟨rfl, rfl⟩
    next new stored =>
      split
      next => exact .inl ⟨rfl, rfl⟩
      next => exact .inr ⟨new, storedWindow?_legal stored, rfl, rfl⟩

theorem seed_ne_zero {value : Nat} (low : value ≤ 32767) :
    (if value = 0 then 1 else BitVec.ofNat 15 value : BitVec 15) ≠ 0 := by
  split
  next => decide
  next nonzero =>
    intro zero
    have : value % 32768 = 0 := by simpa using congrArg BitVec.toNat zero
    omega

theorem ownSeedAudit_changes (value : Nat) : OwnerChanges true (ownSeedAudit value) := by
  intro s _
  unfold ownSeedAudit
  split
  next => exact .refl
  next low =>
    generalize seed : (if value = 0 then 1 else BitVec.ofNat 15 value : BitVec 15) = v
    have nonzero : v ≠ 0 := seed ▸ seed_ne_zero (not_lt.1 low)
    dsimp only
    split
    next => exact .refl
    next => exact .single (.line <| .auditSet v fun _ => nonzero)

theorem unlocked_of_passes {s : State} (passes : protectionPasses s = true) : s.protection ≠ .locked := by
  intro locked
  simp [protectionPasses, locked] at passes

theorem ownSetProtection_changes (mode : Nat) : OwnerChanges true (ownSetProtection mode) := by
  intro s passes
  unfold ownSetProtection
  split
  next => exact .refl
  next m _ =>
    split
    next => exact .refl
    next => exact .single (.line <| .modeSet m (unlocked_of_passes (passes rfl)))

end Sys2Proof.Transitions

/-! PROOFS. Every command is an event: a chain of changes with at most one answer, and the grants. -/

namespace Sys2Proof.Transitions

open Sys2Proof Sys2Proof.Machine

/-! ## Events -/

/-- The part takes frames, or one of its engines has something to do. -/
def Awake (s : State) : Prop :=
  s.resetPin = false ∨ s.waitList ≠ [] ∨ s.sweep.state = .running ∨ s.cribEgress.sending ≠ none
    ∨ s.hallEgress.sending ≠ none

/-- What a command other than the two resets and the table-writing requests makes of the state. -/
inductive Event (s : State) : State → Prop
  | stays : Event s s
  | pinReleased : Event s { s with resetPin := false }
  | keyMoved (level : Bool) : Event s { s with key := level }
  | partKept (p : Port) (bytes : List Byte) (released : s.resetPin = false) :
      Event s (putPort p { portAt s p with receiving := bytes } s)
  | worked (u : State) (awake : Awake s) (chain : Changes s u) : Event s (grants u)
  | answered (u : State) (a : Answer) (released : s.resetPin = false) (room : s.answers.length < 8)
      (chain : Changes s u) : Event s (grants (pushAnswer a u))

/-- What an accepted table-writing request makes of the stores: a chain of changes, or one hold window stored. -/
inductive Written (s : State) : State → Prop
  | chain {u : State} (chain : Changes s u) : Written s u
  | window (w : Nat) (new : HoldWindow) (legal : WindowLegal new) :
      Written s { heard .crib s with holds := s.holds.setIfInBounds w new }

/-- What a table-writing request that changed stored content makes of the state (R181). -/
def Wrote (s t : State) : Prop :=
  ∃ u a, s.resetPin = false ∧ s.answers.length < 8 ∧ Written s u ∧ t = grants (pushAnswer a (advanceGeneration u))

/-! ## Frames and requests -/

theorem event_onArrival {p : Port} {effect : State → State} {s : State}
    (acts : Changes (heard p s) (effect (heard p s))) : Event s (onArrival p effect s) := by
  cases pin : s.resetPin with
  | true => rw [onArrival_reset _ _ _ pin]; exact .stays
  | false =>
    rw [onArrival_released _ _ _ pin]
    exact .worked _ (.inl pin) (acts.head (.line <| .receptionEnded p))

theorem heard_answers (p : Port) (s : State) : (heard p s).answers = s.answers := by
  cases p <;> rfl

theorem event_onTag {c : Fin 4} {take : State → State} {s : State}
    (acts : ChangesThenAnswers (heard .crib s) (take (heard .crib s))) : Event s (onTag c take s) := by
  unfold onTag
  cases pin : s.resetPin with
  | true => rw [onArrival_reset _ _ _ pin]; exact .stays
  | false =>
    rw [onArrival_released _ _ _ pin]
    split
    next room =>
      obtain ⟨u, a, chain, result⟩ := acts
      rw [result]
      exact .answered u a pin (by simpa [answerRoom, Config.answerPlaces] using room) (chain.head (.line <| .receptionEnded .crib))
    next => exact .worked _ (.inl pin) ((Relation.ReflTransGen.single (.line <| .tagCounted c)).head (.line <| .receptionEnded .crib))

theorem event_requestDropped {s : State} (pin : s.resetPin = false) :
    Event s (grants { heard .crib s with mgmtDropped := tally s.mgmtDropped }) :=
  .worked _ (.inl pin) ((Relation.ReflTransGen.single (.line .requestCounted)).head (.line <| .receptionEnded .crib))

theorem event_openRequest {owner : State → Taken} (acts : OwnerChanges false owner) (code rt : Nat) (s : State) :
    Event s (openRequest code rt owner s) := by
  cases pin : s.resetPin with
  | true => unfold openRequest onRequest; rw [onArrival_reset _ _ _ pin]; exact .stays
  | false =>
    rcases lt_or_ge s.answers.length 8 with room | full
    · rw [openRequest_taken _ _ _ _ ⟨pin, room⟩, reply]
      exact .answered _ _ pin room ((acts _ (by simp)).head (.line <| .receptionEnded .crib))
    · unfold openRequest; rw [onRequest_full _ _ pin full]; exact event_requestDropped pin

/-- A table-writing request is lost, dropped or refused, or it passes the protection check to its owner. -/
theorem tableRequest_cases (code rt : Nat) (owner : State → Taken) (s : State) :
    Event s (tableRequest code rt owner s)
      ∨ ∃ a, s.resetPin = false ∧ s.answers.length < 8 ∧ protectionPasses (heard .crib s) = true
          ∧ tableRequest code rt owner s
            = grants (pushAnswer a (if (owner (heard .crib s)).changed
                then advanceGeneration (owner (heard .crib s)).state else (owner (heard .crib s)).state)) := by
  cases pin : s.resetPin with
  | true => unfold tableRequest onRequest; rw [onArrival_reset _ _ _ pin]; exact .inl .stays
  | false =>
    rcases lt_or_ge s.answers.length 8 with room | full
    · cases passes : protectionPasses s with
      | false =>
        rw [tableRequest_refused _ _ _ _ ⟨pin, room⟩ passes, reply]
        exact .inl (.answered _ _ pin room
          ((Relation.ReflTransGen.single (.line <| .errorMarked true)).head (.line <| .receptionEnded .crib)))
      | true =>
        rw [tableRequest_taken _ _ _ _ ⟨⟨pin, room⟩, passes⟩, reply]
        exact .inr ⟨_, rfl, room, by simpa [protectionPasses] using passes, rfl⟩
    · unfold tableRequest; rw [onRequest_full _ _ pin full]; exact .inl (event_requestDropped pin)

theorem event_tableRequest {owner : State → Taken} (acts : OwnerChanges true owner) (code rt : Nat) (s : State) :
    Event s (tableRequest code rt owner s) ∨ Wrote s (tableRequest code rt owner s) := by
  rcases tableRequest_cases code rt owner s with event | ⟨a, pin, room, passes, result⟩
  · exact .inl event
  · have chain : Changes s (owner (heard .crib s)).state := (acts _ fun _ => passes).head (.line <| .receptionEnded .crib)
    rw [result]
    split
    next => exact .inr ⟨_, a, pin, room, .chain chain, rfl⟩
    next => exact .inl (.answered _ a pin room chain)

theorem event_writeHolds (code rt w : Nat) (b : HoldBody) (s : State) :
    Event s (tableRequest code rt (ownWriteHolds w b) s) ∨ Wrote s (tableRequest code rt (ownWriteHolds w b) s) := by
  rcases tableRequest_cases code rt (ownWriteHolds w b) s with event | ⟨a, pin, room, -, result⟩
  · exact .inl event
  · rw [result]
    rcases ownWriteHolds_cases w b (heard .crib s) with ⟨still, unchanged⟩ | ⟨new, legal, stored, changed⟩
    · rw [still, unchanged]
      exact .inl (.answered _ a pin room (.single (.line <| .receptionEnded .crib)))
    · rw [stored, changed, if_pos rfl, heard_holds]
      exact .inr ⟨_, a, pin, room, .window w new legal, rfl⟩

/-! ## Commands -/

/-- The command comes to a next state by an event. -/
def RunsAsEvent (i : Instr) (s : State) : Prop := ∃ t, exec i s = .next t ∧ Event s t

/-- The command comes to a next state by an event or by a write of stored content. -/
def RunsAsWrite (i : Instr) (s : State) : Prop := ∃ t, exec i s = .next t ∧ (Event s t ∨ Wrote s t)

theorem RunsAsEvent.write {i : Instr} {s : State} (runs : RunsAsEvent i s) : RunsAsWrite i s := by
  obtain ⟨t, result, event⟩ := runs
  exact ⟨t, result, .inl event⟩

theorem runs_of_open {i : Instr} {code rt : Nat} {owner : State → Taken}
    (arm : ∀ s, exec i s = .next (openRequest code rt owner s)) (acts : OwnerChanges false owner) (s : State) :
    RunsAsEvent i s := ⟨_, arm s, event_openRequest acts code rt s⟩

theorem runs_of_table {i : Instr} {code rt : Nat} {owner : State → Taken}
    (arm : ∀ s, exec i s = .next (tableRequest code rt owner s)) (acts : OwnerChanges true owner) (s : State) :
    RunsAsWrite i s := ⟨_, arm s, event_tableRequest acts code rt s⟩

theorem runs_of_openRequest {i : Instr} (listed : listedRequest i = true) (reads : tableWriting i = false) (s : State) :
    RunsAsEvent i s := by
  cases i
  case identify => exact runs_of_open (fun _ => rfl) (ownerChanges_of_still fun _ => rfl) s
  case readStatus => exact runs_of_open (fun _ => rfl) (ownerChanges_of_still fun _ => rfl) s
  case readCounters => exact runs_of_open (fun _ => rfl) (ownerChanges_of_still fun _ => rfl) s
  case clearStatus => exact runs_of_open (fun _ => rfl) ownClearStatus_changes s
  case clearCounters => exact runs_of_open (fun _ => rfl) (fun _ _ => .single .countersCleared) s
  case readType => exact runs_of_open (fun _ => rfl) (ownerChanges_of_still (ownReadType_state _)) s
  case readCal => exact runs_of_open (fun _ => rfl) (ownerChanges_of_still (ownReadCal_state _ _)) s
  case readProfile => exact runs_of_open (fun _ => rfl) (ownerChanges_of_still (ownReadProfile_state _ _)) s
  case readPockets => exact runs_of_open (fun _ => rfl) (ownerChanges_of_still (ownReadPockets_state _ _ _)) s
  case readAssemblies => exact runs_of_open (fun _ => rfl) (ownerChanges_of_still (ownReadAssemblies_state _ _)) s
  case pauseHandoff => exact runs_of_open (fun _ => rfl) (ownSetPaused_changes _ true) s
  case resumeHandoff => exact runs_of_open (fun _ => rfl) (ownSetPaused_changes _ false) s
  case sweepSuspend => exact runs_of_open (fun _ => rfl) (ownMoveSweep_changes (by decide) (by decide)) s
  case sweepResume => exact runs_of_open (fun _ => rfl) (ownMoveSweep_changes (by decide) (by decide)) s
  case lineReset => exact runs_of_open (fun _ => rfl) (fun _ _ => .single .lineReset) s
  case writeType | writeCal | switchCal | cancelCalSwitch | headRestore | defineMachine | writeProfile
      | switchProfile | cancelProfileSwitch | create | restore | changeType | bindTag | unbindTag | rebuild | delete
      | forceReturn | writeHolds | seedAudit | setProtection => cases reads
  all_goals cases listed

theorem runs_of_tableWriting {i : Instr} (writes : tableWriting i = true) (s : State) : RunsAsWrite i s := by
  cases i
  case writeType => exact runs_of_table (fun _ => rfl) (ownWriteType_changes _ _) s
  case writeCal => exact runs_of_table (fun _ => rfl) (ownWriteCal_changes _ _ _) s
  case switchCal => exact runs_of_table (fun _ => rfl) (ownSwitchCal_changes _ _) s
  case cancelCalSwitch => exact runs_of_table (fun _ => rfl) (ownCancelCal_changes _) s
  case headRestore => exact runs_of_table (fun _ => rfl) (ownHeadRestore_changes _) s
  case defineMachine => exact runs_of_table (fun _ => rfl) (ownDefineMachine_changes _ _) s
  case writeProfile => exact runs_of_table (fun _ => rfl) (ownWriteProfile_changes _ _ _) s
  case switchProfile => exact runs_of_table (fun _ => rfl) (ownSwitchProfile_changes _ _) s
  case cancelProfileSwitch => exact runs_of_table (fun _ => rfl) (ownCancelProfile_changes _) s
  case create => exact runs_of_table (fun _ => rfl) (ownCreate_changes _ _ _) s
  case restore => exact runs_of_table (fun _ => rfl) (ownRestore_changes _ _) s
  case changeType => exact runs_of_table (fun _ => rfl) (ownChangeType_changes _ _) s
  case bindTag => exact runs_of_table (fun _ => rfl) (bindTag_changes _ _) s
  case unbindTag => exact runs_of_table (fun _ => rfl) (unbindTag_changes _) s
  case rebuild => exact runs_of_table (fun _ => rfl) (rebuild_changes _) s
  case delete => exact runs_of_table (fun _ => rfl) (ownDelete_changes _) s
  case forceReturn => exact runs_of_table (fun _ => rfl) (ownForceReturn_changes _) s
  case writeHolds => exact ⟨_, rfl, event_writeHolds _ _ _ _ s⟩
  case seedAudit => exact runs_of_table (fun _ => rfl) (ownSeedAudit_changes _) s
  case setProtection => exact runs_of_table (fun _ => rfl) (ownSetProtection_changes _) s
  all_goals cases writes

theorem runs_of_listed {i : Instr} (listed : listedRequest i = true) (s : State) : RunsAsWrite i s := by
  cases kind : tableWriting i with
  | true => exact runs_of_tableWriting kind s
  | false => exact (runs_of_openRequest listed kind s).write

/-- At its owner a listed request is its own row. -/
theorem runRequest_listed {i : Instr} (listed : listedRequest i = true) (s : State) : runRequest i s = exec i s := by
  cases i <;> cases listed <;> rfl

theorem runArrival_listed {i : Instr} (listed : listedRequest i = true) (s : State) : runArrival i s = exec i s := by
  cases i <;> cases listed <;> rfl

theorem runs_unknownRequest (code rt : Nat) (body : List Byte) (s : State) :
    RunsAsWrite (.unknownRequest code rt body) s := by
  have arm : exec (.unknownRequest code rt body) s = execUnknownRequest code rt body s := rfl
  unfold RunsAsWrite
  rw [arm, execUnknownRequest]
  cases spelled : decodeRequest code rt body with
  | none => exact ⟨_, rfl, .inl (event_openRequest (ownerChanges_of_still fun _ => rfl) code rt s)⟩
  | some i =>
    have listed := decodeRequest_listed spelled
    dsimp only
    rw [runRequest_listed listed]
    exact runs_of_listed listed s

theorem changes_fromMachine {m : Nat} {effect : State → State} (acts : ∀ s, Changes s (effect s)) (s : State) :
    Event s (fromMachine m effect s) := by
  refine event_onArrival ?_
  split
  next => exact acts _
  next => exact .single (.line <| .lineCounted .hall .sourceRefused)

theorem awake_of_take {s : State} {e : WaitEntry} (next : nextTake s = some e) : Awake s := by
  obtain ⟨-, waits, -⟩ := nextTake_some next
  exact .inr (.inl (List.ne_nil_of_mem waits))

/-- The rows that are frames, with their fields decoded, and those of the part's own engines. -/
theorem runs_of_unlisted {i : Instr} (unlisted : listedRequest i = false) (other : i ≠ .powerOnReset)
    (pin : i ≠ .pinReset) (decoded : ∀ p r, i ≠ .frameArrival p r)
    (readable : ∀ code rt body, i ≠ .unknownRequest code rt body) (s : State) :
    RunsAsEvent i s := by
  cases i
  case powerOnReset => exact absurd rfl other
  case frameArrival p r => exact absurd rfl (decoded p r)
  case unknownRequest code rt body => exact absurd rfl (readable code rt body)
  case pinReset => exact absurd rfl pin
  case resetPinRelease => exact ⟨_, rfl, .pinReleased⟩
  case keyLineChange level => exact ⟨_, rfl, .keyMoved level⟩
  case contact h g tag => exact ⟨_, rfl, event_onArrival (changes_gaugeContact h g tag _)⟩
  case sample h g => exact ⟨_, rfl, event_onArrival (changes_gaugeSample h g _)⟩
  case release h g => exact ⟨_, rfl, event_onArrival (changes_gaugeRelease h g _)⟩
  case issue c tag m p => exact ⟨_, rfl, event_onTag (changes_takeIssue c tag ⟨m, p⟩ _)⟩
  case returnHolder c tag => exact ⟨_, rfl, event_onTag (changes_takeReturn c tag _)⟩
  case dataRequest m p =>
    refine ⟨_, rfl, changes_fromMachine (fun u => ?_) s⟩
    split
    next => exact .single (.line <| .lineCounted .hall .malformed)
    next => exact changes_placeRequest _ _ _ _
  case usage m report => exact ⟨_, rfl, changes_fromMachine (changes_reportUsage m report) s⟩
  case general p dst src payload => exact ⟨_, rfl, event_onArrival (changes_enterTransit _ _ _)⟩
  case toolData m src payload => exact ⟨_, rfl, event_onArrival (changes_guardToolData m src payload _)⟩
  case transmissionCompletion p =>
    refine ⟨_, rfl, ?_⟩
    unfold completeOn
    cases p with
    | crib =>
      cases sending : s.cribEgress.sending with
      | none => exact .stays
      | some x => exact .worked _ (by simp [Awake, sending]) (changes_completeCrib sending)
    | hall =>
      cases sending : s.hallEgress.sending with
      | none => exact .stays
      | some x => exact .worked _ (by simp [Awake, sending]) (changes_completeHall sending)
  case handoffTake =>
    refine ⟨_, rfl, ?_⟩
    split
    next e next => exact .worked _ (awake_of_take next) (changes_takeEntry next)
    next => exact .stays
  case atDrain m =>
    refine ⟨_, rfl, ?_⟩
    split
    next e next =>
      split
      next => exact .worked _ (awake_of_take next) (changes_takeEntry next)
      next => exact .stays
    next => exact .stays
  case sweepStep =>
    refine ⟨_, rfl, ?_⟩
    split
    next running => exact .worked _ (.inr (.inr (.inl running))) (changes_engineStep running)
    next => exact .stays
  case sweepEnd =>
    refine ⟨_, rfl, ?_⟩
    split
    next done => exact .worked _ (.inr (.inr (.inl done.1))) (changes_endSweep done.1 done.2)
    next => exact .stays
  case settleTimeout h g =>
    refine ⟨_, rfl, ?_⟩
    split
    next => exact event_onArrival (changes_gaugeSample h g _)
    next => exact .stays
  case atCaptureEnd h k g tag =>
    refine ⟨_, rfl, ?_⟩
    split
    next => exact event_onArrival (changes_gaugeFrame h k g tag _)
    next => exact .stays
  all_goals cases unlisted

/-- A frame's command runs as its own row; the rows that no frame carries would change nothing. -/
theorem runArrival_cases (i : Instr) (s : State) :
    (runArrival i s = exec i s ∧ i ≠ .powerOnReset ∧ i ≠ .pinReset ∧ ∀ p r, i ≠ .frameArrival p r) ∨ runArrival i s = .next s := by
  cases i
  all_goals first | exact .inl ⟨rfl, by simp, by simp, by simp⟩ | exact .inr rfl

theorem runs_of_decoded {i : Instr} (other : i ≠ .powerOnReset) (pin : i ≠ .pinReset)
    (decoded : ∀ p r, i ≠ .frameArrival p r) (s : State) : RunsAsWrite i s := by
  cases listed : listedRequest i with
  | true => exact runs_of_listed listed s
  | false =>
    by_cases readable : ∃ code rt body, i = .unknownRequest code rt body
    · obtain ⟨code, rt, body, rfl⟩ := readable
      exact runs_unknownRequest code rt body s
    · exact (runs_of_unlisted listed other pin decoded (fun code rt body is => readable ⟨code, rt, body, is⟩) s).write

theorem runs_frameArrival (p : Port) (r : Reception) (s : State) : RunsAsWrite (.frameArrival p r) s := by
  have arm : exec (.frameArrival p r) s = execFrameArrival p r s := rfl
  unfold RunsAsWrite
  rw [arm, execFrameArrival]
  split
  next => exact ⟨s, rfl, .inl .stays⟩
  next released =>
    have pin : s.resetPin = false := by simpa using released
    split
    next => exact ⟨s, rfl, .inl .stays⟩
    next =>
      unfold arrive
      split
      next c _ => exact ⟨_, rfl, .inl (event_onArrival (.single (.line <| .lineCounted p c)))⟩
      next => exact ⟨_, rfl, .inl (event_onArrival .refl)⟩
      next i _ =>
        rcases runArrival_cases i s with ⟨runs, other, pin, decoded⟩ | still
        · rw [runs]; exact runs_of_decoded other pin decoded s
        · exact ⟨s, still, .inl .stays⟩
    next => exact ⟨_, rfl, .inl (.partKept p _ pin)⟩

/-- Every command but the two resets is an event, or a write of stored content. -/
theorem exec_runs {i : Instr} (other : i ≠ .powerOnReset) (pin : i ≠ .pinReset) (s : State) : RunsAsWrite i s := by
  by_cases frame : ∃ p r, i = .frameArrival p r
  · obtain ⟨p, r, rfl⟩ := frame
    exact runs_frameArrival p r s
  · exact runs_of_decoded other pin (fun p r is => frame ⟨p, r, is⟩) s

/-- How a command comes to its next state. -/
theorem exec_next {i : Instr} {s t : State} (result : exec i s = .next t) :
    (i = .powerOnReset ∧ t = initialized s)
      ∨ (i = .pinReset ∧ t = { initialized s with resetPin := true, protection := afterPinReset s.protection })
      ∨ Event s t ∨ Wrote s t := by
  by_cases power : i = .powerOnReset
  · subst power
    cases result
    exact .inl ⟨rfl, rfl⟩
  by_cases pin : i = .pinReset
  · subst pin
    cases result
    exact .inr (.inl ⟨rfl, rfl⟩)
  · obtain ⟨u, runs, done⟩ := exec_runs power pin s
    rw [runs] at result
    cases result
    exact .inr (.inr done)

/-! ## Invariants -/

/-- `t` is `s` up to the waiting commands, the pins, the receive states, the arbiters, the answers, the generation and
the mode. -/
def Quiet (s t : State) : Prop :=
  t = { s with
        pending := t.pending, resetPin := t.resetPin, key := t.key
        crib := { s.crib with receiving := t.crib.receiving }, hall := { s.hall with receiving := t.hall.receiving }
        cribEgress := t.cribEgress, hallEgress := t.hallEgress, answers := t.answers, generation := t.generation
        protection := t.protection }

theorem quiet_grants (s : State) : Quiet s (grants s) := by
  rw [grants_frame]; rfl

theorem quiet_partKept (p : Port) (bytes : List Byte) (s : State) :
    Quiet s (putPort p { portAt s p with receiving := bytes } s) := by
  cases p <;> rfl

/-- A property that a chain's changes keep holds at its end. -/
theorem changes_keep {P : State → Prop} (change : ∀ {s t}, Change s t → P s → P t) {s t : State} (chain : Changes s t)
    (h : P s) : P t := by
  induction chain with
  | refl => exact h
  | tail _ last ih => exact change last ih

section Invariants

variable {P : State → Prop} (quiet : ∀ {s t}, Quiet s t → P s → P t) (change : ∀ {s t}, Change s t → P s → P t)
  (start : P State.reset)

include quiet change

theorem event_keeps {s t : State} (event : Event s t) (h : P s) : P t := by
  cases event with
  | stays => exact h
  | pinReleased => exact quiet (s := s) rfl h
  | keyMoved => exact quiet (s := s) rfl h
  | partKept p bytes => exact quiet (quiet_partKept p bytes s) h
  | worked u _ chain => exact quiet (quiet_grants u) (changes_keep change chain h)
  | answered u a _ _ chain =>
    exact quiet (quiet_grants _) (quiet (s := u) rfl (changes_keep change chain h))

variable (window : ∀ {s} w new, WindowLegal new → P s → P { s with holds := s.holds.setIfInBounds w new })

include window

theorem wrote_keeps {s t : State} (wrote : Wrote s t) (h : P s) : P t := by
  obtain ⟨u, a, -, -, written, rfl⟩ := wrote
  refine quiet (quiet_grants _) (quiet (s := u) rfl ?_)
  cases written with
  | chain chain => exact changes_keep change chain h
  | window w new legal => exact window w new legal (quiet (t := heard .crib s) rfl h)

include start

theorem exec_keeps {i : Instr} {s t : State} (result : exec i s = .next t) (h : P s) : P t := by
  rcases exec_next result with ⟨-, rfl⟩ | ⟨-, rfl⟩ | event | wrote
  · exact quiet (s := State.reset) rfl start
  · exact quiet (s := State.reset) rfl start
  · exact event_keeps quiet change event h
  · exact wrote_keeps quiet change window wrote h

/-- A property that holds after power-on reset, that every change and every stored window keep, and that the arbiters
and the answers do not touch is kept by every step. -/
theorem step_keeps {s t : State} (result : step s = .next t) (h : P s) : P t := by
  unfold step at result
  split at result
  next => cases result; exact h
  next i rest _ => exact exec_keeps quiet change start window result (quiet (s := s) rfl h)

end Invariants

end Sys2Proof.Transitions

/-! PROOFS. What each kind of change leaves as it is, and the statements that follow from it alone: completion, the
mode, the RESET pin, and the frames on the line. -/

namespace Sys2Proof.Transitions

open Sys2Proof Sys2Proof.Machine

/-! ## What each kind of change leaves -/

theorem lineChange_frame {s t : State} (changed : LineChange s t) :
    t = { s with
          crib := t.crib, hall := t.hall, cribTransit := t.cribTransit, hallTransit := t.hallTransit
          cribEgress := t.cribEgress, hallEgress := t.hallEgress, guardBlocked := t.guardBlocked, audit := t.audit
          tagDropped := t.tagDropped, handoff := t.handoff, handoffDropped := t.handoffDropped
          usageMismatch := t.usageMismatch, protection := t.protection, protectionError := t.protectionError
          mgmtDropped := t.mgmtDropped, answers := t.answers, notices := t.notices
          discardedNotices := t.discardedNotices } := by
  cases changed
  case receptionEnded p => cases p <;> rfl
  case lineCounted p c => cases p <;> rfl
  case transitEntered p f _ => cases p <;> rfl
  case transitDropped p => cases p <;> rfl
  case cribSent src f _ => cases src <;> rfl
  all_goals rfl

theorem headChange_frame {s t : State} (changed : HeadChange s t) : t = { s with heads := t.heads } := by
  cases changed <;> rfl

theorem setState_frame (n : Nat) (state : AsmState) (s : State) :
    setState n state s = { s with assemblies := (setState n state s).assemblies } := by
  unfold setState
  split <;> rfl

theorem captureChange_frame {s t : State} (changed : CaptureChange s t) :
    t = { s with heads := t.heads, assemblies := t.assemblies, sweep := t.sweep } := by
  cases changed
  case captureAborted h c y _ _ _ => rw [setState_frame]; rfl
  case recordSwept n _ _ => unfold stepOn; rw [evaluate_frame]
  case recordReviewed n r _ _ => rw [evaluate_frame]; rfl
  all_goals rfl

theorem bindTo_frame (n : Nat) (tag : Option Tag) (s : State) :
    bindTo n tag s = { s with tagMap := (bindTo n tag s).tagMap } := by
  cases tag <;> rfl

theorem unbindFrom_frame (tag : Option Tag) (s : State) :
    unbindFrom tag s = { s with tagMap := (unbindFrom tag s).tagMap } := by
  cases tag <;> rfl

theorem enterPlace_frame (n : Nat) (location : Option Place) (s : State) :
    enterPlace n location s = { s with issueMap := (enterPlace n location s).issueMap } := by
  cases location <;> rfl

theorem dropRecord_some (r : Assembly) (s : State) :
    dropRecord (some r) s = { countOut r.type (unbindFrom r.tag s) with sweep := lessMark r.marked s.sweep } := by
  rw [dropRecord, unbindFrom_frame, lessMark]
  dsimp only
  split <;> rfl

theorem dropRecord_frame (old : Option Assembly) (s : State) :
    dropRecord old s
      = { s with
          tagMap := (dropRecord old s).tagMap, types := (dropRecord old s).types, sweep := (dropRecord old s).sweep } := by
  cases old with
  | none => rfl
  | some r => rw [dropRecord_some, unbindFrom_frame]; rfl

theorem recordChange_frame {s t : State} (changed : RecordChange s t) :
    t = { s with
          assemblies := t.assemblies, tagMap := t.tagMap, issueMap := t.issueMap, types := t.types, sweep := t.sweep } := by
  cases changed
  case recordCreated n t tag _ _ _ _ => rw [bindTo_frame]; rfl
  case recordRestored n b r _ _ _ _ _ _ _ => rw [enterPlace_frame, bindTo_frame, dropRecord_frame]; rfl
  case tagUnbound n r _ => rw [unbindFrom_frame]; rfl
  case recordDeleted n r _ _ => rw [dropRecord_frame]
  all_goals rfl

theorem typeChange_frame {s t : State} (changed : TypeChange s t) :
    t = { s with types := t.types, assemblies := t.assemblies, sweep := t.sweep } := by
  cases changed <;> rfl

theorem putMachine_frame (m : Nat) (x : MachineDef) (s : State) :
    putMachine m x s = { s with machines := (putMachine m x s).machines } := by
  unfold putMachine
  split <;> rfl

theorem machineChange_frame {s t : State} (changed : MachineChange s t) :
    t = { s with machines := t.machines, waitList := t.waitList, handoff := t.handoff } := by
  cases changed
  case profileCancelled m x _ => rw [putMachine_frame]; split <;> rfl
  case profileRequested => rw [putMachine_frame]; rfl
  case markTaken => rw [putMachine_frame]; rfl
  case waiterJoined => rfl
  case entryTaken => rfl
  all_goals rw [putMachine_frame]

theorem foldl_abortForReset_frame (heads : List Head) (s : State) :
    heads.foldl abortForReset s = { s with assemblies := (heads.foldl abortForReset s).assemblies } := by
  induction heads generalizing s with
  | nil => rfl
  | cons x rest ih =>
    have first : abortForReset s x = { s with assemblies := (abortForReset s x).assemblies } := by
      unfold abortForReset
      split
      next c _ => exact setState_frame c.assembly c.prior s
      all_goals rfl
    rw [List.foldl_cons, ih, first]

/-- The line reset with the assembly table as the only thing that its aborts change (R184). -/
theorem lineReset_eq (s : State) :
    lineReset s
      = { s with
          assemblies := (s.heads.toList.foldl abortForReset s).assemblies
          heads := s.heads.map quietHead
          sweep := restartedSweep s.sweep
          waitList := [], handoff := []
          machines := s.machines.map fun x => { x with switch := none }
          cribTransit := [], hallTransit := []
          cribEgress := { sending := none, pointer := .transit }
          hallEgress := { sending := none, pointer := .transit }
          protectionError := false, answers := [], notices := [], discardedNotices := 0 } := by
  unfold lineReset
  rw [foldl_abortForReset_frame]

/-! ## What no change touches -/

/-- No change touches the waiting commands, the pins, the hold windows or the generation. -/
theorem change_fixes {s t : State} (changed : Change s t) :
    t.pending = s.pending ∧ t.resetPin = s.resetPin ∧ t.key = s.key ∧ t.holds = s.holds ∧ t.generation = s.generation := by
  cases changed with
  | line changed => rw [lineChange_frame changed]; exact ⟨rfl, rfl, rfl, rfl, rfl⟩
  | head changed => rw [headChange_frame changed]; exact ⟨rfl, rfl, rfl, rfl, rfl⟩
  | capture changed => rw [captureChange_frame changed]; exact ⟨rfl, rfl, rfl, rfl, rfl⟩
  | record changed => rw [recordChange_frame changed]; exact ⟨rfl, rfl, rfl, rfl, rfl⟩
  | type changed => rw [typeChange_frame changed]; exact ⟨rfl, rfl, rfl, rfl, rfl⟩
  | machine changed => rw [machineChange_frame changed]; exact ⟨rfl, rfl, rfl, rfl, rfl⟩
  | lineReset => rw [lineReset_eq]; exact ⟨rfl, rfl, rfl, rfl, rfl⟩
  | _ => exact ⟨rfl, rfl, rfl, rfl, rfl⟩

theorem changes_fix {s t : State} (chain : Changes s t) :
    t.pending = s.pending ∧ t.resetPin = s.resetPin ∧ t.key = s.key ∧ t.holds = s.holds ∧ t.generation = s.generation := by
  induction chain with
  | refl => exact ⟨rfl, rfl, rfl, rfl, rfl⟩
  | tail _ last ih =>
    obtain ⟨a, b, c, d, e⟩ := change_fixes last
    obtain ⟨a', b', c', d', e'⟩ := ih
    exact ⟨a.trans a', b.trans b', c.trans c', d.trans d', e.trans e'⟩

theorem written_fixes {s u : State} (written : Written s u) : u.pending = s.pending ∧ u.resetPin = s.resetPin := by
  cases written with
  | chain chain => exact ⟨(changes_fix chain).1, (changes_fix chain).2.1⟩
  | window => exact ⟨rfl, rfl⟩

theorem event_pending {s t : State} (event : Event s t) : t.pending = s.pending := by
  cases event with
  | partKept p => cases p <;> rfl
  | worked u _ chain => rw [grants_pending]; exact (changes_fix chain).1
  | answered u a _ _ chain => rw [grants_pending]; exact (changes_fix chain).1
  | _ => rfl

theorem wrote_pending {s t : State} (wrote : Wrote s t) : t.pending = s.pending := by
  obtain ⟨u, a, -, -, written, rfl⟩ := wrote
  rw [grants_pending]
  exact (written_fixes written).1

/-- Settles O2: every command is an event or a write, and neither touches the queue. -/
theorem everyCommandCompletes : Obligations.EveryCommandCompletes := by
  intro i s
  by_cases power : i = .powerOnReset
  · subst power
    exact ⟨_, rfl, rfl⟩
  by_cases pin : i = .pinReset
  · subst pin
    exact ⟨_, rfl, rfl⟩
  · obtain ⟨t, result, event | wrote⟩ := exec_runs power pin s
    · exact ⟨t, result, event_pending event⟩
    · exact ⟨t, result, wrote_pending wrote⟩

/-! ## The mode (R179) -/

theorem change_locked {s t : State} (changed : Change s t) (locked : s.protection = .locked) :
    t.protection = .locked := by
  cases changed with
  | line changed =>
    cases changed
    case receptionEnded p => cases p <;> exact locked
    case lineCounted p c => cases p <;> exact locked
    case transitEntered p f _ => cases p <;> exact locked
    case transitDropped p => cases p <;> exact locked
    case cribSent src f _ => cases src <;> exact locked
    case modeSet mode unlocked => exact absurd locked unlocked
    all_goals exact locked
  | head changed => rw [headChange_frame changed]; exact locked
  | capture changed => rw [captureChange_frame changed]; exact locked
  | record changed => rw [recordChange_frame changed]; exact locked
  | type changed => rw [typeChange_frame changed]; exact locked
  | machine changed => rw [machineChange_frame changed]; exact locked
  | lineReset => rw [lineReset_eq]; exact locked
  | _ => exact locked

theorem changes_locked {s t : State} (chain : Changes s t) (locked : s.protection = .locked) :
    t.protection = .locked := changes_keep (P := fun u => u.protection = .locked) change_locked chain locked

/-- Settles O22: the one change of the mode needs a mode other than LOCKED, and a pin reset keeps LOCKED. -/
theorem lockedStaysLocked : Obligations.LockedStaysLocked := by
  intro s t i locked power result
  rcases exec_next result with ⟨is, -⟩ | ⟨-, rfl⟩ | event | ⟨v, a, -, -, written, rfl⟩
  · exact absurd is power
  · rw [locked]; rfl
  · cases event with
    | stays => exact locked
    | pinReleased => exact locked
    | keyMoved => exact locked
    | partKept p => cases p <;> exact locked
    | worked v _ chain => rw [grants_protection]; exact changes_locked chain locked
    | answered v a _ _ chain => rw [grants_protection]; exact (changes_locked chain locked :)
  · rw [grants_protection]
    cases written with
    | chain chain => exact (changes_locked chain locked :)
    | window => exact locked

/-! ## The RESET pin (R185) -/

theorem initialUnderReset_of_released {t : State} (released : t.resetPin = false) : InitialUnderReset t := by
  intro asserted
  rw [released] at asserted
  cases asserted

theorem changes_initialUnderReset {s u : State} (initial : InitialUnderReset s) (awake : Awake s) (chain : Changes s u) :
    u.resetPin = false := by
  rw [(changes_fix chain).2.1]
  by_contra asserted
  rw [Bool.not_eq_false] at asserted
  have now := initial asserted
  rw [now] at awake
  simp [Awake, State.reset, Sweep.reset] at awake

theorem event_initialUnderReset {s t : State} (initial : InitialUnderReset s) (event : Event s t) :
    InitialUnderReset t := by
  cases event with
  | stays => exact initial
  | pinReleased => exact initialUnderReset_of_released rfl
  | keyMoved level =>
    intro asserted
    have now := initial asserted
    conv_lhs => rw [now]
  | partKept p bytes released => exact initialUnderReset_of_released (by cases p <;> exact released)
  | worked u awake chain =>
    exact initialUnderReset_of_released (by rw [grants_resetPin]; exact changes_initialUnderReset initial awake chain)
  | answered u a released _ chain =>
    exact initialUnderReset_of_released (by
      rw [grants_resetPin]; exact (changes_initialUnderReset initial (.inl released) chain :))

theorem wrote_initialUnderReset {s t : State} (wrote : Wrote s t) : InitialUnderReset t := by
  obtain ⟨u, a, released, -, written, rfl⟩ := wrote
  refine initialUnderReset_of_released ?_
  rw [grants_resetPin]
  exact (written_fixes written).2.trans released

/-- Settles O5: while the pin is asserted the part is not awake, so no event but those of the pins and the resets
changes anything. -/
theorem resetPinHoldsInitialCondition : Obligations.ResetPinHoldsInitialCondition := by
  intro s t initial result
  unfold step at result
  split at result
  next => cases result; exact initial
  next i rest _ =>
    have popped : InitialUnderReset { s with pending := rest } := by
      intro asserted
      have now := initial asserted
      conv_lhs => rw [now]
    rcases exec_next result with ⟨-, rfl⟩ | ⟨-, rfl⟩ | event | wrote
    · intro asserted
      have pin : s.resetPin = true := asserted
      simp [initialized, pin, State.reset]
    · exact fun _ => rfl
    · exact event_initialUnderReset popped event
    · exact wrote_initialUnderReset wrote

end Sys2Proof.Transitions

/-! PROOFS. The two arbiters: what they send stays the oldest frame of its source through every change, and after the
grants a port is IDLE only when its sources are empty (R171, R172). -/

namespace Sys2Proof.Ports

open Sys2Proof Sys2Proof.Machine Sys2Proof.Transitions

/-- What each arbiter sends is the oldest frame of the granted source. -/
def FrontsHold (s : State) : Prop :=
  (∀ x, s.cribEgress.sending = some x → cribFront s x.1 = some x.2)
    ∧ ∀ x, s.hallEgress.sending = some x → hallFront s x.1 = some x.2

theorem portsBusy_iff (s : State) :
    PortsBusy s ↔ FrontsHold s
      ∧ (s.cribEgress.sending = none → s.cribTransit = [] ∧ s.answers = [] ∧ s.notices = [])
      ∧ (s.hallEgress.sending = none → s.hallTransit = [] ∧ s.handoff = []) := by
  unfold PortsBusy FrontsHold
  cases s.cribEgress.sending <;> cases s.hallEgress.sending <;> simp [and_comm]

/-! ## The oldest frames through a change -/

theorem head?_append_of_some {α : Type} {xs : List α} {x : α} (ys : List α) (h : xs.head? = some x) :
    (xs ++ ys).head? = some x := by
  rw [List.head?_append, h]; rfl

/-- The sources of `t` begin as those of `s`, wherever those hold a frame. -/
def FrontsKept (s t : State) : Prop :=
  (∀ src f, cribFront s src = some f → cribFront t src = some f)
    ∧ ∀ src f, hallFront s src = some f → hallFront t src = some f

theorem frontsKept_of_append {s t : State} {cribTransit hallTransit : List Frame} {answers : List Answer}
    {notices : List Notice} {handoff : List HandoffFrame} (h1 : t.cribTransit = s.cribTransit ++ cribTransit)
    (h2 : t.answers = s.answers ++ answers) (h3 : t.notices = s.notices ++ notices)
    (h4 : t.hallTransit = s.hallTransit ++ hallTransit) (h5 : t.handoff = s.handoff ++ handoff) : FrontsKept s t := by
  constructor
  · intro src f front
    cases src with
    | transit => rw [cribFront, h1]; exact head?_append_of_some _ front
    | answer =>
      obtain ⟨a, head, rfl⟩ := Option.map_eq_some_iff.1 front
      rw [cribFront, h2, head?_append_of_some _ head]; rfl
    | notice =>
      obtain ⟨a, head, rfl⟩ := Option.map_eq_some_iff.1 front
      rw [cribFront, h3, head?_append_of_some _ head]; rfl
  · intro src f front
    cases src with
    | transit => rw [hallFront, h4]; exact head?_append_of_some _ front
    | handoff =>
      obtain ⟨a, head, rfl⟩ := Option.map_eq_some_iff.1 front
      rw [hallFront, h5, head?_append_of_some _ head]; rfl

theorem FrontsHold.kept {s t : State} (holds : FrontsHold s) (crib : t.cribEgress = s.cribEgress)
    (hall : t.hallEgress = s.hallEgress) (kept : FrontsKept s t) : FrontsHold t := by
  obtain ⟨c, h⟩ := holds
  exact ⟨fun x sent => kept.1 _ _ (c x (crib ▸ sent)), fun x sent => kept.2 _ _ (h x (hall ▸ sent))⟩

/-- A void mark is no byte of the frame (log 18). -/
theorem handoffFrame_voidedFor (n : Nat) (f : HandoffFrame) : handoffFrame (voidedFor n f) = handoffFrame f := by
  unfold voidedFor
  split
  next => split <;> rfl
  all_goals rfl

theorem lineChange_fronts {s t : State} (changed : LineChange s t) (holds : FrontsHold s) : FrontsHold t := by
  cases changed
  case receptionEnded p => cases p <;> exact holds
  case lineCounted p c => cases p <;> exact holds
  case transitDropped p => cases p <;> exact holds
  case transitEntered p f _ =>
    cases p with
    | crib =>
      exact holds.kept rfl rfl (frontsKept_of_append (List.append_nil _).symm (List.append_nil _).symm
        (List.append_nil _).symm rfl (List.append_nil _).symm)
    | hall =>
      exact holds.kept rfl rfl (frontsKept_of_append rfl (List.append_nil _).symm (List.append_nil _).symm
        (List.append_nil _).symm (List.append_nil _).symm)
  case noticeEntered body _ =>
    exact holds.kept rfl rfl (frontsKept_of_append (List.append_nil _).symm (List.append_nil _).symm rfl
      (List.append_nil _).symm (List.append_nil _).symm)
  case cribSent src f _ => cases src <;> exact ⟨fun x sent => (by cases sent), holds.2⟩
  case hallTransitSent f _ => exact ⟨holds.1, fun x sent => (by cases sent)⟩
  case handoffSent f _ => exact ⟨holds.1, fun x sent => (by cases sent)⟩
  case framesVoided n =>
    refine holds.kept rfl rfl ⟨fun src f front => front, fun src f front => ?_⟩
    cases src with
    | transit => exact front
    | handoff =>
      obtain ⟨a, head, rfl⟩ := Option.map_eq_some_iff.1 front
      rw [hallFront, List.head?_map, head]
      exact congrArg some (handoffFrame_voidedFor n a)
  all_goals exact holds

theorem machineChange_fronts {s t : State} (changed : MachineChange s t) (holds : FrontsHold s) : FrontsHold t := by
  have joined : ∀ e, FrontsHold (entryMoved e s) := fun e =>
    holds.kept rfl rfl (frontsKept_of_append (List.append_nil _).symm (List.append_nil _).symm
      (List.append_nil _).symm (List.append_nil _).symm rfl)
  cases changed
  case waiterJoined => exact holds
  case entryTaken e _ _ => exact joined e
  case markTaken e x w _ _ _ _ => rw [putMachine_frame]; exact joined e
  case profileCancelled m x _ => rw [putMachine_frame]; split <;> exact holds
  all_goals rw [putMachine_frame]; exact holds

theorem change_fronts {s t : State} (changed : Change s t) (holds : FrontsHold s) : FrontsHold t := by
  cases changed with
  | line changed => exact lineChange_fronts changed holds
  | machine changed => exact machineChange_fronts changed holds
  | head changed => rw [headChange_frame changed]; exact holds
  | capture changed => rw [captureChange_frame changed]; exact holds
  | record changed => rw [recordChange_frame changed]; exact holds
  | type changed => rw [typeChange_frame changed]; exact holds
  | lineReset => rw [lineReset_eq]; exact ⟨fun x sent => (by cases sent), fun x sent => (by cases sent)⟩
  | _ => exact holds

/-! ## The grants -/

theorem searchCrib_some {s : State} {c : CribSource} {x : CribSource × Frame} (found : searchCrib s c = some x) :
    cribFront s x.1 = some x.2 := by
  obtain ⟨src, -, answered⟩ := List.exists_of_findSome?_eq_some found
  obtain ⟨f, front, rfl⟩ := Option.map_eq_some_iff.1 answered
  exact front

theorem searchCrib_none {s : State} {c : CribSource} (found : searchCrib s c = none) (src : CribSource) :
    cribFront s src = none := by
  have listed : src ∈ [c, nextCribSource c, nextCribSource (nextCribSource c)] := by
    cases c <;> cases src <;> decide
  exact Option.map_eq_none_iff.1 (List.findSome?_eq_none_iff.1 found src listed)

theorem searchHall_some {s : State} {c : HallSource} {x : HallSource × Frame} (found : searchHall s c = some x) :
    hallFront s x.1 = some x.2 := by
  obtain ⟨src, -, answered⟩ := List.exists_of_findSome?_eq_some found
  obtain ⟨f, front, rfl⟩ := Option.map_eq_some_iff.1 answered
  exact front

theorem searchHall_none {s : State} {c : HallSource} (found : searchHall s c = none) (src : HallSource) :
    hallFront s src = none := by
  have listed : src ∈ [c, nextHallSource c] := by cases c <;> cases src <;> decide
  exact Option.map_eq_none_iff.1 (List.findSome?_eq_none_iff.1 found src listed)

/-- The crib half of a port's legal state after its grant. -/
theorem grantCrib_busy {s : State} (holds : FrontsHold s) :
    FrontsHold (grantCrib s) ∧ ((grantCrib s).cribEgress.sending = none →
      (grantCrib s).cribTransit = [] ∧ (grantCrib s).answers = [] ∧ (grantCrib s).notices = []) := by
  unfold grantCrib
  split
  next busy => exact ⟨holds, fun idle => by simp [idle] at busy⟩
  next =>
    split
    next src f found =>
      exact ⟨⟨fun x sent => (by cases sent; exact searchCrib_some found), holds.2⟩, fun idle => by cases idle⟩
    next none =>
      refine ⟨holds, fun _ => ⟨?_, ?_, ?_⟩⟩
      · exact List.head?_eq_none_iff.1 (searchCrib_none none .transit)
      · exact List.head?_eq_none_iff.1 (Option.map_eq_none_iff.1 (searchCrib_none none .answer))
      · exact List.head?_eq_none_iff.1 (Option.map_eq_none_iff.1 (searchCrib_none none .notice))

theorem grantHall_busy {s : State} (holds : FrontsHold s) :
    FrontsHold (grantHall s) ∧ ((grantHall s).hallEgress.sending = none →
      (grantHall s).hallTransit = [] ∧ (grantHall s).handoff = []) := by
  unfold grantHall
  split
  next busy => exact ⟨holds, fun idle => by simp [idle] at busy⟩
  next =>
    split
    next src f found =>
      exact ⟨⟨holds.1, fun x sent => (by cases sent; exact searchHall_some found)⟩, fun idle => by cases idle⟩
    next none =>
      refine ⟨holds, fun _ => ⟨?_, ?_⟩⟩
      · exact List.head?_eq_none_iff.1 (searchHall_none none .transit)
      · exact List.head?_eq_none_iff.1 (Option.map_eq_none_iff.1 (searchHall_none none .handoff))

theorem grants_busy {s : State} (holds : FrontsHold s) : PortsBusy (grants s) := by
  obtain ⟨crib, cribIdle⟩ := grantCrib_busy holds
  obtain ⟨hall, hallIdle⟩ := grantHall_busy crib
  refine (portsBusy_iff _).2 ⟨hall, ?_, hallIdle⟩
  unfold grants
  rw [grantHall_cribEgress, grantHall_cribTransit, grantHall_answers, grantHall_notices]
  exact cribIdle

theorem pushAnswer_fronts {s : State} (a : Answer) (holds : FrontsHold s) : FrontsHold (pushAnswer a s) :=
  holds.kept rfl rfl (frontsKept_of_append (List.append_nil _).symm rfl (List.append_nil _).symm
    (List.append_nil _).symm (List.append_nil _).symm)

theorem event_busy {s t : State} (busy : PortsBusy s) (event : Event s t) : PortsBusy t := by
  have holds := ((portsBusy_iff s).1 busy).1
  cases event with
  | stays => exact busy
  | pinReleased => exact busy
  | keyMoved => exact busy
  | partKept p => cases p <;> exact busy
  | worked u _ chain => exact grants_busy (changes_keep change_fronts chain holds)
  | answered u a _ _ chain => exact grants_busy (pushAnswer_fronts a (changes_keep change_fronts chain holds))

/-- Settles O15: what is sent stays the front of its source through every change, and every event that changes a queue
ends with the grants. -/
theorem portsStayBusy : Obligations.PortsStayBusy := by
  intro s t busy result
  unfold step at result
  split at result
  next => cases result; exact busy
  next i rest _ =>
    have popped : PortsBusy { s with pending := rest } := busy
    rcases exec_next result with ⟨-, rfl⟩ | ⟨-, rfl⟩ | event | ⟨v, a, -, -, written, rfl⟩
    · simp [PortsBusy, initialized, State.reset]
    · simp [PortsBusy, initialized, State.reset]
    · exact event_busy popped event
    · have before := ((portsBusy_iff _).1 popped).1
      have holds : FrontsHold v := by
        cases written with
        | chain chain => exact changes_keep change_fronts chain before
        | window => exact before
      exact grants_busy (pushAnswer_fronts a (s := advanceGeneration v) holds)

end Sys2Proof.Ports

/-! PROOFS. The four heads stay legal through every change (R45, R46, R64, R77). -/

namespace Sys2Proof.Heads

open Sys2Proof Sys2Proof.Machine Sys2Proof.Transitions

/-! ## What an ARMED slot holds -/

/-- The assembly and the prior state of the capture that a head's slot holds. -/
def holding (x : Head) : Option (Nat × AsmState) := (armedCapture x).map fun c => (c.assembly, c.prior)

theorem holding_armed {x : Head} {c : Capture} (armed : x.slot = .armed c) : holding x = some (c.assembly, c.prior) := by
  rw [holding, slot_eq_of_armedCapture.2 armed]; rfl

theorem holding_unarmed {x : Head} (free : ∀ c, x.slot ≠ .armed c) : holding x = none := by
  rw [holding, armedCapture_eq_none.2 free]; rfl

theorem holding_slot {x y : Head} (same : y.slot = x.slot) : holding y = holding x := by
  unfold holding armedCapture
  rw [same]

theorem HeadEnds.holding {x y : Head} (ends : HeadEnds x y) : Heads.holding y = none := by
  cases ends with
  | freed slot free => exact holding_unarmed free
  | switched slot free => exact holding_unarmed free
  | faulted => exact holding_unarmed (by simp)

theorem withWrittenCal_fixes (x : Head) (b : Bank) (content : CalBank) :
    (withWrittenCal x b content).slot = x.slot ∧ (withWrittenCal x b content).active = x.active
      ∧ (withWrittenCal x b content).pendingCal = x.pendingCal := by
  unfold withWrittenCal withCalBank
  dsimp only
  split <;> cases b <;> exact ⟨rfl, rfl, rfl⟩

/-! ## A legal head -/

/-- `HeadLegal` with its conditions as propositions. -/
theorem headLegal_iff (x : Head) :
    HeadLegal x ↔ (x.status = .uncalibrated ↔ calValid (activeCal x) = false)
      ∧ (x.status ≠ .ready → x.slot = .idle)
      ∧ (∀ b, x.pendingCal = some b → b ≠ x.active ∧ calValid (calBankOf x b) = true ∧ ∃ c, x.slot = .armed c)
      ∧ ∀ c, x.slot = .armed c →
          c.bank = x.active ∧ 1 ≤ c.frames ∧ c.frames ≤ 63 ∧ c.history.length ≤ (activeCal x).depth := by
  have pending : (x.pendingCal.all fun b => b ≠ x.active && calValid (calBankOf x b) && (armedCapture x).isSome) = true
      ↔ ∀ b, x.pendingCal = some b → b ≠ x.active ∧ calValid (calBankOf x b) = true ∧ ∃ c, x.slot = .armed c := by
    have armed : (armedCapture x).isSome = true ↔ ∃ c, x.slot = .armed c := by
      rw [Option.isSome_iff_exists]
      exact exists_congr fun c => slot_eq_of_armedCapture
    cases x.pendingCal with
    | none => simp
    | some b => simp [armed, and_assoc]
  have capture : ((armedCapture x).all fun c => c.bank = x.active && 1 ≤ c.frames && c.frames ≤ 63
        && c.history.length ≤ (activeCal x).depth) = true
      ↔ ∀ c, x.slot = .armed c →
          c.bank = x.active ∧ 1 ≤ c.frames ∧ c.frames ≤ 63 ∧ c.history.length ≤ (activeCal x).depth := by
    simp only [← slot_eq_of_armedCapture]
    cases armedCapture x with
    | none => simp
    | some c => simp [and_assoc]
  unfold HeadLegal
  rw [pending, capture]

theorem headsLegal_iff (s : State) : HeadsLegal s ↔ ∀ h, HeadLegal (headAt s h) := by
  unfold HeadsLegal headAt
  constructor
  · intro legal h
    exact legal _ (by simp)
  · intro legal x hx
    obtain ⟨i, hi, rfl⟩ := List.mem_iff_getElem.1 hx
    simpa using legal ⟨i, by simpa using hi⟩

theorem headsLegal_putHead {s : State} {h : Fin 4} {y : Head} (legal : HeadsLegal s) (new : HeadLegal y) :
    HeadsLegal (putHead h y s) := by
  rw [headsLegal_iff] at *
  intro h'
  rw [headAt_putHead]
  split
  next => exact new
  next => exact legal h'

/-- A head without a capture has no pending switch. -/
theorem pending_none_of_free {x : Head} (legal : HeadLegal x) (free : ∀ c, x.slot ≠ .armed c) : x.pendingCal = none := by
  obtain ⟨-, -, pending, -⟩ := (headLegal_iff x).1 legal
  cases target : x.pendingCal with
  | none => rfl
  | some b =>
    obtain ⟨-, -, c, armed⟩ := pending b target
    exact absurd armed (free c)

/-- A head that has just become READY, or stays FAULT, on a valid bank and with a free slot. -/
theorem headLegal_of_free {x : Head} (calibrated : x.status = .uncalibrated ↔ calValid (activeCal x) = false)
    (idle : x.status ≠ .ready → x.slot = .idle) (still : x.pendingCal = none) (free : ∀ c, x.slot ≠ .armed c) :
    HeadLegal x := by
  refine (headLegal_iff x).2 ⟨calibrated, idle, fun b target => ?_, fun c armed => absurd armed (free c)⟩
  rw [still] at target
  cases target

theorem valid_of_ready {x : Head} (legal : HeadLegal x) (ready : x.status = .ready) : calValid (activeCal x) = true := by
  obtain ⟨calibrated, -⟩ := (headLegal_iff x).1 legal
  rw [← Bool.not_eq_false, ← calibrated, ready]
  simp

theorem calibratedState_ne (x : HeadState) : calibratedState x ≠ .uncalibrated := by
  cases x <;> simp [calibratedState]

theorem calibratedState_idle {x : Head} (legal : HeadLegal x) (busy : calibratedState x.status ≠ .ready) :
    x.slot = .idle := by
  obtain ⟨-, idle, -⟩ := (headLegal_iff x).1 legal
  refine idle fun ready => busy ?_
  rw [ready]; rfl

theorem headLegal_ends {x y : Head} (legal : HeadLegal x) (ready : x.status = .ready) (ends : HeadEnds x y) :
    HeadLegal y := by
  cases ends with
  | freed slot free still =>
    exact headLegal_of_free ((headLegal_iff x).1 legal).1 (fun busy => absurd ready busy) still free
  | switched slot free b target =>
    obtain ⟨-, -, pending, -⟩ := (headLegal_iff x).1 legal
    obtain ⟨-, valid, -⟩ := pending b target
    have valid' : calValid (calBankOf x b) = true := valid
    refine headLegal_of_free ⟨fun un => absurd un (calibratedState_ne _), fun bad => ?_⟩ (fun busy => ?_) rfl free
    · have : calValid (calBankOf x b) = false := by cases b <;> exact bad
      rw [valid'] at this
      cases this
    · exact absurd (by simp [switchedTo, calibratedState, ready]) busy
  | faulted record =>
    refine headLegal_of_free ⟨fun un => (by cases un), fun bad => ?_⟩ (fun _ => rfl) rfl (by simp)
    have valid := valid_of_ready legal ready
    have : calValid (activeCal x) = false := bad
    rw [valid] at this
    cases this

theorem calBankOf_withCalBank (x : Head) (b b' : Bank) (content : CalBank) :
    calBankOf (withCalBank x b content) b' = if b' = b then content else calBankOf x b' := by
  cases b <;> cases b' <;> rfl

/-- A written bank is not the valid active one and not the target of a switch (R60); it may make its head READY
(R61). -/
theorem headLegal_withWrittenCal {x : Head} {b : Bank} {content : CalBank} (legal : HeadLegal x)
    (unused : ¬(x.active = b ∧ calValid (calBankOf x b) = true))
    (untargeted : ¬(x.active ≠ b ∧ x.pendingCal = some b)) : HeadLegal (withWrittenCal x b content) := by
  obtain ⟨calibrated, idle, pending, captured⟩ := (headLegal_iff x).1 legal
  obtain ⟨slot, active, target⟩ := withWrittenCal_fixes x b content
  by_cases mine : x.active = b
  · have invalid : calValid (activeCal x) = false := by
      rw [activeCal, mine]
      simpa [mine] using unused
    have un := calibrated.2 invalid
    have free : x.slot = .idle := idle (by rw [un]; simp)
    have unarmed : ∀ c, x.slot ≠ .armed c := by rw [free]; simp
    have bank : activeCal (withWrittenCal x b content) = content := by
      subst mine
      unfold activeCal
      rw [active]
      unfold withWrittenCal
      cases x.active <;> dsimp only <;> split <;> rfl
    refine headLegal_of_free ?_ (fun _ => slot.trans free) (target.trans (pending_none_of_free legal unarmed)) (slot ▸ unarmed)
    rw [bank]
    cases valid : calValid content with
    | true => simp [withWrittenCal, mine, valid, calibratedState_ne]
    | false =>
      have status : (withWrittenCal x b content).status = x.status := by
        have plain : withWrittenCal x b content = withCalBank x b content := by simp [withWrittenCal, valid]
        rw [plain]
        cases b <;> rfl
      simp [status, un]
  · have plain : withWrittenCal x b content = withCalBank x b content := by simp [withWrittenCal, mine]
    have status : (withCalBank x b content).status = x.status := by cases b <;> rfl
    rw [plain] at slot active target ⊢
    have bank : activeCal (withCalBank x b content) = activeCal x := by
      rw [activeCal, active, calBankOf_withCalBank, if_neg mine]; rfl
    refine (headLegal_iff _).2 ⟨?_, ?_, fun b' is => ?_, fun c armed => ?_⟩
    · rw [status, bank]; exact calibrated
    · rw [status, slot]; exact idle
    · rw [target] at is
      obtain ⟨other, valid, armed⟩ := pending b' is
      have apart : b' ≠ b := by
        rintro rfl
        exact untargeted ⟨mine, is⟩
      rw [active, calBankOf_withCalBank, if_neg apart, slot]
      exact ⟨other, valid, armed⟩
    · rw [active, bank]
      exact captured c (slot ▸ armed)

theorem headChange_legal {s t : State} (changed : HeadChange s t) (legal : HeadsLegal s) : HeadsLegal t := by
  have at_ := (headsLegal_iff s).1 legal
  cases changed with
  | gaugeCounted h => exact headsLegal_putHead legal (at_ h)
  | slotMoved h slot ready unarmed free =>
    have still := pending_none_of_free (at_ h) (armedCapture_eq_none.1 unarmed)
    exact headsLegal_putHead legal (headLegal_ends (at_ h) ready (.freed slot free still))
  | headFaulted h record ready unarmed => exact headsLegal_putHead legal (headLegal_ends (at_ h) ready (.faulted record))
  | readingEntered h c frames history ready armed one before kept =>
    obtain ⟨calibrated, -, pending, captured⟩ := (headLegal_iff _).1 (at_ h)
    obtain ⟨bank, -, -, depth⟩ := captured c armed
    refine headsLegal_putHead legal ((headLegal_iff _).2 ⟨calibrated, fun busy => absurd ready busy, ?_, ?_⟩)
    · intro b target
      obtain ⟨other, valid, -⟩ := pending b target
      exact ⟨other, valid, _, rfl⟩
    · rintro c' ⟨⟩
      refine ⟨bank, one, Nat.le_of_lt_succ before, ?_⟩
      rcases kept with kept | same
      · rw [bank] at kept; exact kept
      · rw [same]; exact depth
  | calWritten h b content unused untargeted =>
    exact headsLegal_putHead legal (headLegal_withWrittenCal (at_ h) unused untargeted)
  | calCancelled h =>
    obtain ⟨calibrated, idle, -, captured⟩ := (headLegal_iff _).1 (at_ h)
    exact headsLegal_putHead legal ((headLegal_iff _).2 ⟨calibrated, idle, fun b target => (by cases target), captured⟩)
  | calRequested h b c other valid armed =>
    obtain ⟨calibrated, idle, -, captured⟩ := (headLegal_iff _).1 (at_ h)
    refine headsLegal_putHead legal ((headLegal_iff _).2 ⟨calibrated, idle, ?_, captured⟩)
    rintro b' ⟨⟩
    exact ⟨Ne.symm other, by cases b <;> exact valid, c, armed⟩
  | calSwitched h b valid unarmed =>
    refine headsLegal_putHead legal (headLegal_of_free ⟨fun un => absurd un (calibratedState_ne _), fun bad => ?_⟩
      (calibratedState_idle (at_ h)) rfl (armedCapture_eq_none.1 unarmed))
    have : calValid (calBankOf (headAt s h) b) = false := by cases b <;> exact bad
    rw [valid] at this
    cases this
  | headRestored h record fault =>
    obtain ⟨calibrated, idle, -, -⟩ := (headLegal_iff _).1 (at_ h)
    have slot := idle (by rw [fault]; simp)
    have free : ∀ c, (headAt s h).slot ≠ .armed c := by rw [slot]; simp
    have still := pending_none_of_free (at_ h) free
    refine headsLegal_putHead legal (headLegal_of_free ⟨fun un => (by cases un), fun bad => ?_⟩
      (fun busy => absurd rfl busy) still free)
    have un := calibrated.2 bad
    rw [fault] at un
    cases un

theorem headLegal_reviewPrior {x : Head} (t : TypeRecord) (r : Assembly) (n : Nat) (legal : HeadLegal x) :
    HeadLegal (reviewPrior t r n x) := by
  obtain ⟨calibrated, idle, pending, captured⟩ := (headLegal_iff x).1 legal
  unfold reviewPrior
  split
  next c armed =>
    split
    next =>
      refine (headLegal_iff _).2 ⟨calibrated, fun busy => ?_, fun b target => ?_, ?_⟩
      · have free := idle busy
        rw [armed] at free
        cases free
      · obtain ⟨other, valid, -⟩ := pending b target
        exact ⟨other, valid, _, rfl⟩
      · rintro c' ⟨⟩
        exact captured c armed
    next => exact legal
  all_goals exact legal

/-- The heads after an evaluation: as before, or with the outcome as the prior state of one capture (R11). -/
theorem headAt_evaluate (n : Nat) (s : State) :
    headAt (evaluate n s) = headAt s ∧ (∀ r, recordAt s n = some r → r.state ≠ .measuring)
      ∨ ∃ r, recordAt s n = some r ∧ r.state = .measuring
          ∧ ∀ h, headAt (evaluate n s) h = reviewPrior (typeAt s r.type) r n (headAt s h) := by
  unfold evaluate
  split
  next absent => exact .inl ⟨rfl, by simp [absent]⟩
  next r record =>
    dsimp only
    split
    next measuring => exact .inr ⟨r, record, measuring, fun h => by simp [headAt]⟩
    next free => exact .inl ⟨headAt_putAssembly _ _ _, by simp [record, free]⟩

theorem headsLegal_evaluate {s : State} (n : Nat) (legal : HeadsLegal s) : HeadsLegal (evaluate n s) := by
  rw [headsLegal_iff] at *
  intro h
  rcases headAt_evaluate n s with ⟨same, -⟩ | ⟨r, -, -, mapped⟩
  · rw [same]; exact legal h
  · rw [mapped]; exact headLegal_reviewPrior _ _ _ (legal h)

theorem headsLegal_congr {s t : State} (same : t.heads = s.heads) (legal : HeadsLegal s) : HeadsLegal t := by
  unfold HeadsLegal
  rw [same]
  exact legal

theorem captureChange_legal {s t : State} (changed : CaptureChange s t) (legal : HeadsLegal s) : HeadsLegal t := by
  have at_ := (headsLegal_iff s).1 legal
  cases changed with
  | captureAborted h c y ready armed ends =>
    exact headsLegal_putHead (headsLegal_congr (setState_heads _ _ _) legal) (headLegal_ends (at_ h) ready ends)
  | captureSettled h c c' r y ready armed same record ends =>
    exact headsLegal_putHead (headsLegal_congr rfl legal) (headLegal_ends (at_ h) ready ends)
  | contactArmed h n r c ready idle record unheld free names prior bank frames kept =>
    obtain ⟨calibrated, -, pending, -⟩ := (headLegal_iff _).1 (at_ h)
    refine headsLegal_putHead (headsLegal_congr rfl legal)
      ((headLegal_iff _).2 ⟨calibrated, fun busy => absurd ready busy, fun b target => ?_, ?_⟩)
    · obtain ⟨-, -, c', armed⟩ := pending b target
      rw [idle] at armed
      cases armed
    · rintro c' ⟨⟩
      exact ⟨bank, frames.ge, by omega, kept⟩
  | recordSwept n running next => exact headsLegal_congr rfl (headsLegal_evaluate n legal)
  | recordReviewed n r record marked => exact headsLegal_congr rfl (headsLegal_evaluate n legal)

theorem headAt_map (s : State) (f : Head → Head) (h : Fin 4) :
    headAt { s with heads := s.heads.map f } h = f (headAt s h) := by
  simp [headAt]

theorem change_legal {s t : State} (changed : Change s t) (legal : HeadsLegal s) : HeadsLegal t := by
  have at_ := (headsLegal_iff s).1 legal
  cases changed with
  | head changed => exact headChange_legal changed legal
  | capture changed => exact captureChange_legal changed legal
  | line changed => rw [lineChange_frame changed]; exact legal
  | record changed => rw [recordChange_frame changed]; exact legal
  | type changed => rw [typeChange_frame changed]; exact legal
  | machine changed => rw [machineChange_frame changed]; exact legal
  | countersCleared =>
    have cleared : HeadsLegal { s with heads := s.heads.map fun x => { x with gaugeDiscarded := 0 } } :=
      (headsLegal_iff _).2 fun h => by rw [headAt_map]; exact at_ h
    exact headsLegal_congr rfl cleared
  | lineReset =>
    have quiet : HeadsLegal { s with heads := s.heads.map quietHead } :=
      (headsLegal_iff _).2 fun h => by
        rw [headAt_map]
        exact headLegal_of_free ((headLegal_iff _).1 (at_ h)).1 (fun _ => rfl) rfl (by simp [quietHead])
    rw [lineReset_eq]
    exact headsLegal_congr rfl quiet
  | _ => exact legal

theorem reset_headsLegal : HeadsLegal State.reset := by
  refine (headsLegal_iff _).2 fun h => headLegal_of_free ?_ ?_ ?_ ?_ <;>
    simp [headAt, State.reset, Head.reset, activeCal, calBankOf, calValid, calReason, CalBank.reset]

/-- Settles O33: every change of a head is one that a legal head allows. -/
theorem headsStayLegal : Obligations.HeadsStayLegal := by
  intro s t legal result
  exact step_keeps (fun quiet h => by rw [quiet]; exact h) change_legal reset_headsLegal (fun _ _ _ h => h) result legal

end Sys2Proof.Heads

/-! PROOFS. The tables and the captures: every change keeps the tables canonical, and every MEASURING assembly with
exactly one ARMED slot (R5, R81, R101). -/

namespace Sys2Proof.Records

open Sys2Proof Sys2Proof.Machine Sys2Proof.Transitions Sys2Proof.Heads

/-! ## Canonical tables -/

/-- An assembly table in its canonical form. -/
def Canonical (t : Table Assembly) : Prop := t.Pairwise (fun a b => a.1 < b.1) ∧ ∀ e ∈ t, e.1 < 1024

theorem tablesCanonical_iff (s : State) :
    TablesCanonical s ↔ Canonical s.assemblies ∧ s.tagMap.Pairwise (fun a b => a.1 < b.1)
      ∧ s.issueMap.Pairwise (fun a b => a.1 < b.1) := by
  unfold TablesCanonical Canonical
  tauto

theorem canonical_tableSet {t : Table Assembly} {n : Nat} (canonical : Canonical t) (low : n < 1024) (r : Assembly) :
    Canonical (tableSet t n r) := by
  obtain ⟨rising, small⟩ := canonical
  refine ⟨tableSet_sorted n r rising, fun e he => ?_⟩
  rcases mem_tableSet he with rfl | old
  · exact low
  · exact small e old

theorem canonical_tableErase {t : Table Assembly} (n : Nat) (canonical : Canonical t) : Canonical (tableErase t n) :=
  ⟨tableErase_sorted n canonical.1, fun e he => canonical.2 e (List.mem_of_mem_filter he)⟩

theorem canonical_map {t : Table Assembly} (f : Assembly → Assembly) (canonical : Canonical t) :
    Canonical (t.map fun e => (e.1, f e.2)) := by
  obtain ⟨rising, small⟩ := canonical
  refine ⟨List.pairwise_map.2 rising, fun e he => ?_⟩
  obtain ⟨e', he', rfl⟩ := List.mem_map.1 he
  exact small e' he'

/-- A record's number lies in the table. -/
theorem lt_of_recordAt {s : State} {n : Nat} {r : Assembly} (canonical : Canonical s.assemblies)
    (record : recordAt s n = some r) : n < 1024 := canonical.2 (n, r) (mem_of_tableGet record)

theorem recordAt_of_mem {s : State} (canonical : Canonical s.assemblies) {e : Nat × Assembly} (mem : e ∈ s.assemblies) :
    recordAt s e.1 = some e.2 := tableGet_of_mem canonical.1 mem

/-- The entries of a canonical table are its records. -/
theorem forall_mem_iff {s : State} (canonical : Canonical s.assemblies) {p : Nat → Assembly → Prop} :
    (∀ e ∈ s.assemblies, p e.1 e.2) ↔ ∀ n r, recordAt s n = some r → p n r :=
  ⟨fun all n r record => all (n, r) (mem_of_tableGet record), fun all e mem => all e.1 e.2 (recordAt_of_mem canonical mem)⟩

theorem canonical_setState {s : State} (n : Nat) (state : AsmState) (canonical : Canonical s.assemblies) :
    Canonical (setState n state s).assemblies := by
  unfold setState
  split
  next => exact canonical
  next r record => exact canonical_tableSet canonical (lt_of_recordAt canonical record) _

theorem canonical_evaluate {s : State} (n : Nat) (canonical : Canonical s.assemblies) :
    Canonical (evaluate n s).assemblies := by
  unfold evaluate
  split
  next => exact canonical
  next r record =>
    dsimp only
    split <;> exact canonical_tableSet canonical (lt_of_recordAt canonical record) _

theorem canonical_abortForReset {s : State} (x : Head) (canonical : Canonical s.assemblies) :
    Canonical (abortForReset s x).assemblies := by
  unfold abortForReset
  split
  next c _ => exact canonical_setState _ _ canonical
  all_goals exact canonical

theorem canonical_foldl_abortForReset {s : State} (heads : List Head) (canonical : Canonical s.assemblies) :
    Canonical (heads.foldl abortForReset s).assemblies := by
  induction heads generalizing s with
  | nil => exact canonical
  | cons x rest ih => exact ih (canonical_abortForReset x canonical)

theorem captureChange_canonical {s t : State} (changed : CaptureChange s t) (canonical : Canonical s.assemblies) :
    Canonical t.assemblies := by
  cases changed with
  | captureAborted h c y _ _ _ => exact canonical_setState _ _ canonical
  | captureSettled h c c' r y _ _ _ record _ => exact canonical_tableSet canonical (lt_of_recordAt canonical record) _
  | contactArmed h n r c _ _ record => exact canonical_tableSet canonical (lt_of_recordAt canonical record) _
  | recordSwept n _ _ => exact canonical_evaluate n canonical
  | recordReviewed n r _ _ => exact canonical_evaluate n canonical

theorem tagMap_bindTo_rising {s : State} (n : Nat) (tag : Option Tag) (rising : s.tagMap.Pairwise (fun a b => a.1 < b.1)) :
    (bindTo n tag s).tagMap.Pairwise (fun a b => a.1 < b.1) := by
  cases tag with
  | none => exact rising
  | some x => exact tableSet_sorted _ _ rising

theorem tagMap_unbindFrom_rising {s : State} (tag : Option Tag) (rising : s.tagMap.Pairwise (fun a b => a.1 < b.1)) :
    (unbindFrom tag s).tagMap.Pairwise (fun a b => a.1 < b.1) := by
  cases tag with
  | none => exact rising
  | some x => exact tableErase_sorted _ rising

theorem tagMap_dropRecord_rising {s : State} (old : Option Assembly) (rising : s.tagMap.Pairwise (fun a b => a.1 < b.1)) :
    (dropRecord old s).tagMap.Pairwise (fun a b => a.1 < b.1) := by
  cases old with
  | none => exact rising
  | some r =>
    rw [dropRecord_some]
    exact tagMap_unbindFrom_rising r.tag rising

theorem issueMap_enterPlace_rising {s : State} (n : Nat) (location : Option Place)
    (rising : s.issueMap.Pairwise (fun a b => a.1 < b.1)) :
    (enterPlace n location s).issueMap.Pairwise (fun a b => a.1 < b.1) := by
  cases location with
  | none => exact rising
  | some p => exact tableSet_sorted _ _ rising

theorem recordChange_canonical {s t : State} (changed : RecordChange s t) (canonical : TablesCanonical s) :
    TablesCanonical t := by
  rw [tablesCanonical_iff] at *
  obtain ⟨records, tags, places⟩ := canonical
  have kept : ∀ {n r} r', recordAt s n = some r → Canonical (tableSet s.assemblies n r') :=
    fun r' record => canonical_tableSet records (lt_of_recordAt records record) r'
  cases changed with
  | recordUsed n r u record => exact ⟨kept _ record, tags, places⟩
  | recordWithdrawn n r u reason record => exact ⟨kept _ record, tags, places⟩
  | serviceEntered n r record => exact ⟨kept _ record, tags, places⟩
  | recordIssued p n r x record => exact ⟨kept _ record, tags, tableSet_sorted _ _ places⟩
  | recordReturned n r draw record => exact ⟨kept _ record, tags, tableEraseValue_sorted _ places⟩
  | recordCreated n t tag low =>
    rw [bindTo_frame]
    exact ⟨canonical_tableSet records (by omega) _, tagMap_bindTo_rising (s := putAssembly n _ s) n tag tags, places⟩
  | recordRestored n b r low =>
    rw [enterPlace_frame, bindTo_frame, dropRecord_frame]
    exact ⟨canonical_tableSet records (by omega) _,
      tagMap_bindTo_rising n b.tag (tagMap_dropRecord_rising (s := s) (recordAt s n) tags),
      issueMap_enterPlace_rising n b.location places⟩
  | recordRetyped n t r record => exact ⟨kept _ record, tags, places⟩
  | tagBound n r tag record => exact ⟨kept _ record, tableSet_sorted _ _ tags, places⟩
  | tagUnbound n r record =>
    rw [unbindFrom_frame]
    exact ⟨kept _ record, tagMap_unbindFrom_rising r.tag tags, places⟩
  | recordRebuilt n r record => exact ⟨kept _ record, tags, places⟩
  | recordDeleted n r record =>
    rw [dropRecord_frame]
    exact ⟨canonical_tableErase n records, tagMap_dropRecord_rising (some r) tags, places⟩

theorem change_canonical {s t : State} (changed : Change s t) (canonical : TablesCanonical s) : TablesCanonical t := by
  cases changed with
  | line changed => rw [lineChange_frame changed]; exact canonical
  | head changed => rw [headChange_frame changed]; exact canonical
  | capture changed =>
    rw [tablesCanonical_iff] at *
    have records := captureChange_canonical changed canonical.1
    rw [captureChange_frame changed]
    exact ⟨records, canonical.2⟩
  | record changed => exact recordChange_canonical changed canonical
  | type changed =>
    cases changed with
    | typeStored => exact canonical
    | typeJudged t new =>
      rw [tablesCanonical_iff] at *
      exact ⟨canonical_map (markRecord t) canonical.1, canonical.2⟩
  | machine changed => rw [machineChange_frame changed]; exact canonical
  | lineReset =>
    rw [lineReset_eq]
    rw [tablesCanonical_iff] at *
    exact ⟨canonical_foldl_abortForReset _ canonical.1, canonical.2⟩
  | _ => exact canonical

theorem reset_canonical : TablesCanonical State.reset := by
  simp [TablesCanonical, State.reset]

/-! ## Records after a change -/

theorem recordAt_of_assemblies {s t : State} (same : t.assemblies = s.assemblies) : recordAt t = recordAt s := by
  funext n
  rw [recordAt, recordAt, same]

theorem recordAt_setState (n : Nat) (state : AsmState) (s : State) (m : Nat) :
    recordAt (setState n state s) m
      = if m = n then (recordAt s n).map fun r => { r with state := state } else recordAt s m := by
  unfold setState
  split
  next absent =>
    split
    next is => rw [is, absent]; rfl
    next => rfl
  next r record => rw [recordAt_putAssembly, record]; rfl

theorem tableGet_map (f : Assembly → Assembly) (t : Table Assembly) (n : Nat) :
    tableGet (t.map fun e => (e.1, f e.2)) n = (tableGet t n).map f := by
  induction t with
  | nil => rfl
  | cons e rest ih =>
    simp only [List.map_cons, tableGet, ih]
    split <;> rfl

theorem recordAt_markType (t : Nat) (s : State) (n : Nat) :
    recordAt (markType t s) n = (recordAt s n).map (markRecord t) := tableGet_map _ _ _

/-! ## Captures -/

/-- A head's capture: the assembly that it holds and the state to which an abort returns it. -/
def held (s : State) (h : Fin 4) : Option (Nat × AsmState) := holding (headAt s h)

/-- The assembly `n` is MEASURING. -/
def Measuring (s : State) (n : Nat) : Prop := ∃ r, recordAt s n = some r ∧ r.state = .measuring

/-- `CapturesMatch` over the records and the captures of a canonical state. -/
structure Matched (s : State) : Prop where
  sound : ∀ {h n p}, held s h = some (n, p) → contactable p = true ∧ Measuring s n
  once : ∀ {h h' n p p'}, held s h = some (n, p) → held s h' = some (n, p') → h = h'
  all : ∀ {n}, Measuring s n → ∃ h p, held s h = some (n, p)

theorem held_iff {s : State} {h : Fin 4} {n : Nat} {p : AsmState} :
    held s h = some (n, p) ↔ ∃ c, (headAt s h).slot = .armed c ∧ c.assembly = n ∧ c.prior = p := by
  simp only [held, holding, Option.map_eq_some_iff, Prod.mk.injEq, ← slot_eq_of_armedCapture]

theorem held_armed {s : State} {h : Fin 4} {c : Capture} (armed : (headAt s h).slot = .armed c) :
    held s h = some (c.assembly, c.prior) := holding_armed armed

theorem armedOn_iff {s : State} {h : Fin 4} {n : Nat} : armedOn s h = some n ↔ ∃ p, held s h = some (n, p) := by
  simp only [armedOn, held, holding, Option.map_eq_some_iff, Prod.mk.injEq]
  constructor
  · rintro ⟨c, armed, rfl⟩
    exact ⟨c.prior, c, armed, rfl, rfl⟩
  · rintro ⟨p, c, armed, rfl, -⟩
    exact ⟨c, armed, rfl⟩

theorem capturesMatch_iff {s : State} (canonical : Canonical s.assemblies) : CapturesMatch s ↔ Matched s := by
  have sound : (∀ h : Fin 4, ((armedCapture (headAt s h)).all fun c =>
        contactable c.prior && (recordAt s c.assembly).any fun r => r.state = .measuring) = true)
      ↔ ∀ h n p, held s h = some (n, p) → contactable p = true ∧ Measuring s n := by
    refine forall_congr' fun h => ?_
    simp only [Option.all_eq_true, slot_eq_of_armedCapture, held_iff, Bool.and_eq_true, Option.any_eq_true,
      decide_eq_true_eq, Measuring]
    constructor
    · rintro all n p ⟨c, armed, rfl, rfl⟩
      exact all c armed
    · exact fun all c armed => all _ _ ⟨c, armed, rfl, rfl⟩
  have once : (∀ h h' : Fin 4, h ≠ h' → armedOn s h = armedOn s h' → armedOn s h = none)
      ↔ ∀ h h' n p p', held s h = some (n, p) → held s h' = some (n, p') → h = h' := by
    constructor
    · intro apart h h' n p p' first second
      by_contra other
      have one := armedOn_iff.2 ⟨p, first⟩
      have two := armedOn_iff.2 ⟨p', second⟩
      have none := apart h h' other (one.trans two.symm)
      rw [one] at none
      cases none
    · intro same h h' other both
      by_contra some
      obtain ⟨n, one⟩ := Option.ne_none_iff_exists'.1 some
      obtain ⟨p, first⟩ := armedOn_iff.1 one
      obtain ⟨p', second⟩ := armedOn_iff.1 (both.symm.trans one)
      exact other (same h h' n p p' first second)
  have all : (∀ e ∈ s.assemblies, e.2.state = .measuring → ∃ h : Fin 4, armedOn s h = some e.1)
      ↔ ∀ n, Measuring s n → ∃ h p, held s h = some (n, p) := by
    rw [forall_mem_iff canonical (p := fun n r => r.state = .measuring → ∃ h : Fin 4, armedOn s h = some n)]
    simp only [armedOn_iff]
    constructor
    · rintro all n ⟨r, record, is⟩
      exact all n r record is
    · exact fun all n r record is => all n ⟨r, record, is⟩
  unfold CapturesMatch
  rw [sound, once, all]
  exact ⟨fun ⟨a, b, c⟩ => ⟨a _ _ _, b _ _ _ _ _, c _⟩, fun m => ⟨fun _ _ _ => m.sound, fun _ _ _ _ _ => m.once, fun _ => m.all⟩⟩

theorem matched_congr {s t : State} (captures : held t = held s) (records : ∀ n, Measuring t n ↔ Measuring s n)
    (matched : Matched s) : Matched t where
  sound hold := by rw [captures] at hold; rw [records]; exact matched.sound hold
  once one two := by rw [captures] at one two; exact matched.once one two
  all measuring := by rw [captures]; exact matched.all ((records _).1 measuring)

theorem measuring_iff_of_records {s t : State} (same : recordAt t = recordAt s) (n : Nat) : Measuring t n ↔ Measuring s n := by
  unfold Measuring
  rw [same]

/-- A record replaced by one that is MEASURING exactly when the old one is. -/
theorem measuring_iff_of_put {s t : State} {n : Nat} {r r' : Assembly} (record : recordAt s n = some r)
    (new : ∀ m, recordAt t m = if m = n then some r' else recordAt s m)
    (same : r'.state = .measuring ↔ r.state = .measuring) (m : Nat) : Measuring t m ↔ Measuring s m := by
  unfold Measuring
  rw [new]
  split
  next is => subst is; simp [record, same]
  next => rfl

/-- A slot of no MEASURING assembly filled, replaced or emptied without one. -/
theorem measuring_iff_of_free {s t : State} {n : Nat} {new : Option Assembly}
    (old : ∀ r, recordAt s n = some r → r.state ≠ .measuring)
    (after : ∀ m, recordAt t m = if m = n then new else recordAt s m)
    (free : ∀ r, new = some r → r.state ≠ .measuring) (m : Nat) : Measuring t m ↔ Measuring s m := by
  unfold Measuring
  rw [after]
  split
  next is =>
    subst is
    exact ⟨fun ⟨r, record, is⟩ => absurd is (free r record), fun ⟨r, record, is⟩ => absurd is (old r record)⟩
  next => rfl

/-- A capture that ends frees its head and takes its assembly out of MEASURING. -/
theorem matched_ended {s t : State} {h : Fin 4} {n : Nat} {p : AsmState} (matched : Matched s)
    (held_ : held s h = some (n, p)) (captures : ∀ h', held t h' = if h' = h then none else held s h')
    (records : ∀ m, Measuring t m ↔ m ≠ n ∧ Measuring s m) : Matched t where
  sound {h' m q} hold := by
    rw [captures] at hold
    split at hold
    next => cases hold
    next other =>
      obtain ⟨free, measuring⟩ := matched.sound hold
      refine ⟨free, (records m).2 ⟨?_, measuring⟩⟩
      rintro rfl
      exact other (matched.once hold held_)
  once {h₁ h₂ m q q'} one two := by
    rw [captures] at one two
    split at one
    next => cases one
    next =>
      split at two
      next => cases two
      next => exact matched.once one two
  all {m} measuring := by
    obtain ⟨other, was⟩ := (records m).1 measuring
    obtain ⟨h', q, hold⟩ := matched.all was
    refine ⟨h', q, ?_⟩
    rw [captures, if_neg, hold]
    rintro rfl
    rw [held_] at hold
    cases hold
    exact other rfl

/-- A capture that starts, from a contactable state of an assembly. -/
theorem matched_armed {s t : State} {h : Fin 4} {n : Nat} {p : AsmState} (matched : Matched s) (free : held s h = none)
    (idle : ¬Measuring s n) (contact : contactable p = true)
    (captures : ∀ h', held t h' = if h' = h then some (n, p) else held s h')
    (records : ∀ m, Measuring t m ↔ m = n ∨ Measuring s m) : Matched t where
  sound {h' m q} hold := by
    rw [captures] at hold
    split at hold
    next => cases hold; exact ⟨contact, (records _).2 (.inl rfl)⟩
    next => exact ⟨(matched.sound hold).1, (records m).2 (.inr (matched.sound hold).2)⟩
  once {h₁ h₂ m q q'} one two := by
    rw [captures] at one two
    split at one
    next is =>
      split at two
      next is' => exact is.trans is'.symm
      next => cases one; exact absurd (matched.sound two).2 idle
    next =>
      split at two
      next => cases two; exact absurd (matched.sound one).2 idle
      next => exact matched.once one two
  all {m} measuring := by
    rcases (records m).1 measuring with rfl | was
    · exact ⟨h, p, by rw [captures, if_pos rfl]⟩
    · obtain ⟨h', q, hold⟩ := matched.all was
      refine ⟨h', q, ?_⟩
      rw [captures, if_neg, hold]
      rintro rfl
      rw [free] at hold
      cases hold

/-! ## The aborts of the line reset (R93) -/

theorem recordAt_abortForReset (x : Head) (s : State) (n : Nat) :
    recordAt (abortForReset s x) n = (holding x).elim (recordAt s n) fun held =>
      if n = held.1 then (recordAt s held.1).map fun r => { r with state := held.2 } else recordAt s n := by
  unfold abortForReset
  split
  next c armed => rw [holding_armed armed, recordAt_setState]; rfl
  all_goals next slot => rw [holding_unarmed (by simp [slot])]; rfl

theorem recordAt_foldl_free {heads : List Head} {n : Nat} (free : ∀ x ∈ heads, ∀ p, holding x ≠ some (n, p)) (s : State) :
    recordAt (heads.foldl abortForReset s) n = recordAt s n := by
  induction heads generalizing s with
  | nil => rfl
  | cons x rest ih =>
    rw [List.foldl_cons, ih fun y hy => free y (List.mem_cons_of_mem _ hy), recordAt_abortForReset]
    cases hold : holding x with
    | none => rfl
    | some q =>
      refine if_neg ?_
      rintro rfl
      exact free x List.mem_cons_self q.2 hold

/-- The aborts return an assembly to the prior state on which its captures agree. -/
theorem recordAt_foldl_agreed {heads : List Head} {n : Nat} {p : AsmState}
    (agree : ∀ y ∈ heads, ∀ q, holding y = some (n, q) → q = p) (s : State) :
    recordAt (heads.foldl abortForReset s) n = recordAt s n
      ∧ (∀ y ∈ heads, ∀ q, holding y ≠ some (n, q))
    ∨ recordAt (heads.foldl abortForReset s) n = (recordAt s n).map fun r => { r with state := p } := by
  induction heads generalizing s with
  | nil => exact .inl ⟨rfl, by simp⟩
  | cons y rest ih =>
    have later := ih (fun z hz => agree z (List.mem_cons_of_mem _ hz)) (abortForReset s y)
    rw [List.foldl_cons]
    by_cases names : holding y = some (n, p)
    · have now : recordAt (abortForReset s y) n = (recordAt s n).map fun r => { r with state := p } := by
        rw [recordAt_abortForReset, names]
        exact if_pos rfl
      rw [now] at later
      rcases later with ⟨same, -⟩ | set
      · exact .inr same
      · refine .inr (set.trans ?_)
        rw [Option.map_map]; rfl
    · have other : ∀ q, holding y ≠ some (n, q) := by
        intro q hold
        rw [agree y List.mem_cons_self q hold] at hold
        exact names hold
      have now : recordAt (abortForReset s y) n = recordAt s n := recordAt_foldl_free (heads := [y]) (by simpa using other) s
      rw [now] at later
      refine later.imp_left fun ⟨same, free⟩ => ⟨same, fun z hz => ?_⟩
      rcases List.mem_cons.1 hz with rfl | hz
      · exact other
      · exact free z hz

theorem mem_heads_iff {s : State} {x : Head} : x ∈ s.heads.toList ↔ ∃ h, headAt s h = x := by
  constructor
  · intro mem
    obtain ⟨i, hi, rfl⟩ := List.mem_iff_getElem.1 mem
    exact ⟨⟨i, by simpa using hi⟩, by simp [headAt]⟩
  · rintro ⟨h, rfl⟩
    simp [headAt]

/-- The line reset returns the assembly of one capture alone to its prior state. -/
theorem recordAt_lineReset_held {s : State} {h : Fin 4} {n : Nat} {p : AsmState} (hold : held s h = some (n, p))
    (once : ∀ h' q, held s h' = some (n, q) → h' = h) :
    recordAt (lineReset s) n = (recordAt s n).map fun r => { r with state := p } := by
  have agree : ∀ y ∈ s.heads.toList, ∀ q, holding y = some (n, q) → q = p := by
    intro y hy q holds
    obtain ⟨h', rfl⟩ := mem_heads_iff.1 hy
    obtain rfl := once h' q holds
    have both : some (n, q) = some (n, p) := holds.symm.trans hold
    cases both
    rfl
  rw [lineReset_eq]
  refine (recordAt_foldl_agreed agree s).resolve_left fun ⟨_, free⟩ => ?_
  exact free _ (mem_heads_iff.2 ⟨h, rfl⟩) p hold

theorem recordAt_lineReset_free {s : State} {n : Nat} (free : ∀ h p, held s h ≠ some (n, p)) :
    recordAt (lineReset s) n = recordAt s n := by
  rw [lineReset_eq]
  refine recordAt_foldl_free (fun x hx p => ?_) s
  obtain ⟨h, rfl⟩ := mem_heads_iff.1 hx
  exact free h p

/-! ## Every change keeps the captures matched -/

theorem outcomeOf_contactable (t : TypeRecord) (r : Assembly) (start : AsmState) :
    contactable (outcomeOf t r start) = true := by
  unfold outcomeOf
  split <;> [rfl; rfl; rfl; rfl; skip]
  split_ifs <;> rfl

/-- The effect of an evaluation per state (R11). -/
theorem evaluated_cases (t : TypeRecord) (r : Assembly) :
    (contactable r.state = true ∧ evaluated t r = { r with state := outcomeOf t r r.state, marked := false })
      ∨ (outOfCrib r.state = true
          ∧ evaluated t r = { r with recheck := r.recheck || outcomeOf t r r.state ≠ .preset, marked := false })
      ∨ ((r.state = .measuring ∨ r.state = .retired) ∧ evaluated t r = { r with marked := false }) := by
  unfold evaluated
  cases state : r.state <;> simp [outOfCrib, contactable]

theorem ne_measuring_of_contactable {p : AsmState} (free : contactable p = true) : p ≠ .measuring := by
  rintro rfl
  cases free

theorem ne_measuring_of_inCrib {p : AsmState} (crib : inCrib p = true) : p ≠ .measuring := by
  rintro rfl
  cases crib

theorem evaluated_measuring (t : TypeRecord) (r : Assembly) :
    (evaluated t r).state = .measuring ↔ r.state = .measuring := by
  have never := ne_measuring_of_contactable (outcomeOf_contactable t r r.state)
  unfold evaluated
  split <;> simp_all

theorem held_putHead (s : State) (h h' : Fin 4) (x : Head) :
    held (putHead h x s) h' = if h' = h then holding x else held s h' := by
  unfold held
  rw [headAt_putHead]
  split <;> rfl

theorem held_putHead_same {s : State} {h : Fin 4} {x : Head} (same : holding x = held s h) :
    held (putHead h x s) = held s := by
  funext h'
  rw [held_putHead]
  split
  next is => rw [is, same]
  next => rfl

theorem held_none {s : State} {h : Fin 4} (unarmed : armedCapture (headAt s h) = none) : held s h = none :=
  holding_unarmed (armedCapture_eq_none.1 unarmed)

theorem headChange_held {s t : State} (changed : HeadChange s t) : held t = held s := by
  cases changed with
  | gaugeCounted h => exact held_putHead_same rfl
  | slotMoved h slot ready unarmed free =>
    exact held_putHead_same ((holding_unarmed free).trans (held_none unarmed).symm)
  | headFaulted h record ready unarmed =>
    exact held_putHead_same ((holding_unarmed (by simp)).trans (held_none unarmed).symm)
  | readingEntered h c frames history ready armed =>
    exact held_putHead_same
      ((holding_armed (c := { c with frames := frames, history := history }) rfl).trans (held_armed armed).symm)
  | calWritten h b content => exact held_putHead_same (holding_slot (withWrittenCal_fixes _ b content).1)
  | calCancelled h => exact held_putHead_same (holding_slot rfl)
  | calRequested h b => exact held_putHead_same (holding_slot rfl)
  | calSwitched h b => exact held_putHead_same (holding_slot rfl)
  | headRestored h => exact held_putHead_same (holding_slot rfl)

theorem holding_reviewPrior (t : TypeRecord) (r : Assembly) (n : Nat) (x : Head) :
    holding (reviewPrior t r n x)
      = (holding x).map fun c => (c.1, if c.1 = n then outcomeOf t r c.2 else c.2) := by
  unfold reviewPrior
  split
  next c armed =>
    rw [holding_armed armed]
    split
    next is => rw [holding_armed rfl]; simp [is]
    next other => rw [holding_armed armed]; simp [other]
  all_goals next slot => rw [holding_unarmed (by simp [slot])]; rfl

/-- The captures after an evaluation: those of the assembly have its outcome as their prior state (R11). -/
theorem held_evaluate (n : Nat) (s : State) :
    held (evaluate n s) = held s ∧ (∀ r, recordAt s n = some r → r.state ≠ .measuring)
      ∨ ∃ r, recordAt s n = some r ∧ r.state = .measuring ∧ ∀ h, held (evaluate n s) h
          = (held s h).map fun c => (c.1, if c.1 = n then outcomeOf (typeAt s r.type) r c.2 else c.2) := by
  rcases headAt_evaluate n s with ⟨same, free⟩ | ⟨r, record, is, mapped⟩
  · refine .inl ⟨?_, free⟩
    funext h
    rw [held, same]; rfl
  · right
    refine ⟨r, record, is, fun h => ?_⟩
    rw [held, mapped, holding_reviewPrior]; rfl

theorem measuring_evaluate (n : Nat) (s : State) (m : Nat) : Measuring (evaluate n s) m ↔ Measuring s m := by
  unfold Measuring
  by_cases is : m = n
  · subst is
    cases record : recordAt s m with
    | none => unfold evaluate; rw [record]; simp [record]
    | some r => rw [recordAt_evaluate_same record]; simp [evaluated_measuring]
  · rw [recordAt_evaluate_other s is]

theorem matched_evaluate {s : State} (n : Nat) (matched : Matched s) : Matched (evaluate n s) := by
  rcases held_evaluate n s with ⟨same, -⟩ | ⟨r, -, -, mapped⟩
  · exact matched_congr same (measuring_evaluate n s) matched
  · have was : ∀ {h m p}, held (evaluate n s) h = some (m, p) → ∃ q, held s h = some (m, q) ∧ (p = q ∨ contactable p = true) := by
      intro h m p hold
      rw [mapped, Option.map_eq_some_iff] at hold
      obtain ⟨⟨k, q⟩, before, made⟩ := hold
      cases made
      refine ⟨q, before, ?_⟩
      dsimp only
      split
      next => exact .inr (outcomeOf_contactable _ _ _)
      next => exact .inl rfl
    refine ⟨fun hold => ?_, fun one two => ?_, fun measuring => ?_⟩
    · obtain ⟨q, before, rfl | free⟩ := was hold
      · exact ⟨(matched.sound before).1, (measuring_evaluate n s _).2 (matched.sound before).2⟩
      · exact ⟨free, (measuring_evaluate n s _).2 (matched.sound before).2⟩
    · obtain ⟨q, before, -⟩ := was one
      obtain ⟨q', before', -⟩ := was two
      exact matched.once before before'
    · obtain ⟨h, p, hold⟩ := matched.all ((measuring_evaluate n s _).1 measuring)
      exact ⟨h, _, by rw [mapped, hold]; rfl⟩

theorem settledRecord_ne_measuring (h : Fin 4) (c : Capture) (t : TypeRecord) (r : Assembly) :
    (settledRecord h c t r).state ≠ .measuring := ne_measuring_of_contactable (outcomeOf_contactable _ _ _)

theorem held_ends {s : State} {h : Fin 4} {y : Head} (ends : HeadEnds (headAt s h) y) (u : State) (same : held u = held s)
    (h' : Fin 4) : held (putHead h y u) h' = if h' = h then none else held s h' := by
  rw [held_putHead, HeadEnds.holding ends, same]

theorem captureChange_matched {s t : State} (changed : CaptureChange s t) (matched : Matched s) : Matched t := by
  cases changed with
  | captureAborted h c y ready armed ends =>
    have held_ := held_armed armed
    have free := ne_measuring_of_contactable (matched.sound held_).1
    refine matched_ended matched held_
      (held_ends ends (setState c.assembly c.prior s) (by funext h'; rw [held, headAt_setState]; rfl)) fun m => ?_
    unfold Measuring
    rw [recordAt_putHead, recordAt_setState]
    split
    next is => simp [is, free]
    next other => simp [other]
  | captureSettled h c c' r y ready armed same record ends =>
    refine matched_ended matched (held_armed armed) (held_ends ends _ rfl) fun m => ?_
    unfold Measuring
    rw [recordAt_putHead, recordAt_putAssembly]
    split
    next is => simp [is, settledRecord_ne_measuring]
    next other => simp only [other, ne_eq, not_false_eq_true, true_and]; rfl
  | contactArmed h n r c ready idle record unheld free names prior bank frames kept =>
    have none : held s h = none := holding_unarmed (by simp [idle])
    refine matched_armed (h := h) (n := n) (p := r.state) matched none ?_ free (fun h' => ?_) fun m => ?_
    · rintro ⟨r', record', is⟩
      rw [record] at record'
      cases record'
      exact ne_measuring_of_contactable free is
    · rw [held_putHead, holding_armed rfl, names, prior]; rfl
    · unfold Measuring
      rw [recordAt_putHead, recordAt_putAssembly]
      split
      next is => simp [is]
      next other => simp [other]
  | recordSwept n running next => exact matched_congr (s := evaluate n s) rfl (fun _ => .rfl) (matched_evaluate n matched)
  | recordReviewed n r record marked => exact matched_congr (s := evaluate n s) rfl (fun _ => .rfl) (matched_evaluate n matched)

theorem recordAt_unbindFrom_put (n : Nat) (r : Assembly) (tag : Option Tag) (s : State) (m : Nat) :
    recordAt (unbindFrom tag (putAssembly n r s)) m = if m = n then some r else recordAt s m := by
  rw [recordAt_unbindFrom, recordAt_putAssembly]

theorem recordAt_dropRecord (old : Option Assembly) (s : State) : recordAt (dropRecord old s) = recordAt s := by
  rw [dropRecord_frame]; rfl

theorem recordAt_enterPlace (n : Nat) (location : Option Place) (s : State) :
    recordAt (enterPlace n location s) = recordAt s := by
  rw [enterPlace_frame]; rfl

theorem recordAt_restored (n : Nat) (b : RestoreBody) (r : Assembly) (s : State) (m : Nat) :
    recordAt (enterPlace n b.location (countIn b.type (bindTo n b.tag
        (putAssembly n r (dropRecord (recordAt s n) s))))) m = if m = n then some r else recordAt s m := by
  rw [recordAt_enterPlace, recordAt_countIn, recordAt_bindTo, recordAt_putAssembly, recordAt_dropRecord]

theorem recordAt_created (n t : Nat) (tag : Option Tag) (r : Assembly) (s : State) (m : Nat) :
    recordAt (countIn t (bindTo n tag (putAssembly n r s))) m = if m = n then some r else recordAt s m := by
  rw [recordAt_countIn, recordAt_bindTo, recordAt_putAssembly]

theorem recordAt_retyped (n k k' : Nat) (r : Assembly) (s : State) (m : Nat) :
    recordAt (putAssembly n r (countIn k (countOut k' s))) m = if m = n then some r else recordAt s m := by
  rw [recordAt_putAssembly, recordAt_countIn, recordAt_countOut]

theorem recordAt_deleted (n : Nat) (r : Assembly) (s : State) (m : Nat) :
    recordAt { dropRecord (some r) s with assemblies := tableErase (dropRecord (some r) s).assemblies n } m
      = if m = n then none else recordAt s m := by
  rw [dropRecord_frame]
  exact tableGet_tableErase _ _ _

/-- RESTORE stores no MEASURING record. -/
theorem restoredRecord_ne_measuring {t : TypeRecord} {r : Assembly} (free : r.state ≠ .measuring) :
    (restoredRecord t r).state ≠ .measuring := by
  have outcome := ne_measuring_of_contactable (outcomeOf_contactable t r .rejected)
  unfold restoredRecord
  split
  case h_3 => rwa [ne_eq, evaluated_measuring]
  case h_4 => rwa [ne_eq, evaluated_measuring]
  case h_1 => exact outcome
  case h_2 => exact outcome
  all_goals exact free

theorem returnedRecord_ne_measuring (o : ReturnOutcome) (r : Assembly) : (returnedRecord o r).state ≠ .measuring := by
  cases o <;> simp [returnedRecord]

theorem ne_measuring_of_outOfCrib {p : AsmState} (out : outOfCrib p = true) : p ≠ .measuring := by
  rintro rfl
  cases out

theorem recordChange_measuring {s t : State} (changed : RecordChange s t) (m : Nat) : Measuring t m ↔ Measuring s m := by
  have put : ∀ {n : Nat} {r r' : Assembly} {u : State}, recordAt s n = some r → recordAt u = recordAt s →
      (r'.state = .measuring ↔ r.state = .measuring) → (Measuring (putAssembly n r' u) m ↔ Measuring s m) :=
    fun record same states =>
      measuring_iff_of_put record (fun m => by rw [recordAt_putAssembly, same]) states m
  cases changed with
  | recordUsed n r u record => exact put record rfl .rfl
  | recordWithdrawn n r u reason record out => exact put record rfl (by rcases out with is | is <;> simp [is])
  | serviceEntered n r record issued => exact put record rfl (by simp [issued])
  | recordIssued p n r x record unheld preset => exact put record rfl (by simp [preset])
  | recordReturned n r draw record out =>
    exact put record rfl (by simp [returnedRecord_ne_measuring, ne_measuring_of_outOfCrib out])
  | recordCreated n t tag low absent =>
    exact measuring_iff_of_free (by simp [absent]) (recordAt_created n t tag _ s) (by rintro r ⟨⟩; simp [createdRecord]) m
  | recordRestored n b r low unheld replaceable described =>
    obtain ⟨-, -, -, -, free, -⟩ := describedRecord?_spec described
    exact measuring_iff_of_free (fun old record => ne_measuring_of_inCrib (replaceable old record))
      (recordAt_restored n b _ s) (by rintro r ⟨⟩; exact restoredRecord_ne_measuring free) m
  | recordRetyped n t r record crib usable unmarked =>
    exact put record (by rw [recordAt_countIn, recordAt_countOut]) (evaluated_measuring _ _)
  | tagBound n r tag record => exact put record rfl .rfl
  | tagUnbound n r record => exact measuring_iff_of_put (r' := { r with tag := none }) record (recordAt_unbindFrom_put n _ r.tag s) .rfl m
  | recordRebuilt n r record retired => exact put record rfl (by simp [rebuiltRecord, retired])
  | recordDeleted n r record crib =>
    exact measuring_iff_of_free (by rw [record]; rintro r ⟨⟩; exact ne_measuring_of_inCrib crib)
      (recordAt_deleted n r s) (by simp) m

theorem markRecord_state (t : Nat) (r : Assembly) : (markRecord t r).state = r.state := by
  unfold markRecord
  split <;> rfl

theorem typeChange_measuring {s t : State} (changed : TypeChange s t) (m : Nat) : Measuring t m ↔ Measuring s m := by
  cases changed with
  | typeStored => exact .rfl
  | typeJudged t new =>
    unfold Measuring
    rw [recordAt_markType, recordAt_putType]
    simp [markRecord_state]

theorem held_lineReset (s : State) (h : Fin 4) : held (lineReset s) h = none := by
  have quiet : headAt (lineReset s) h = quietHead (headAt s h) := by simp [headAt, lineReset]
  rw [held, quiet]
  exact holding_unarmed (by simp [quietHead])

theorem matched_lineReset {s : State} (matched : Matched s) : Matched (lineReset s) where
  sound hold := by rw [held_lineReset] at hold; cases hold
  once hold := by rw [held_lineReset] at hold; cases hold
  all {n} measuring := by
    obtain ⟨r, record, is⟩ := measuring
    by_cases free : ∀ h p, held s h ≠ some (n, p)
    · rw [recordAt_lineReset_free free] at record
      obtain ⟨h, p, hold⟩ := matched.all ⟨r, record, is⟩
      exact absurd hold (free h p)
    · push Not at free
      obtain ⟨h, p, hold⟩ := free
      rw [recordAt_lineReset_held hold fun h' q other => matched.once other hold, Option.map_eq_some_iff] at record
      obtain ⟨r', -, rfl⟩ := record
      exact absurd is (ne_measuring_of_contactable (matched.sound hold).1)

theorem change_matched {s t : State} (changed : Change s t) (matched : Matched s) : Matched t := by
  cases changed with
  | line changed => rw [lineChange_frame changed]; exact matched_congr (s := s) rfl (fun _ => .rfl) matched
  | head changed =>
    refine matched_congr (s := s) (headChange_held changed) (fun n => ?_) matched
    rw [headChange_frame changed]; rfl
  | capture changed => exact captureChange_matched changed matched
  | record changed =>
    refine matched_congr (s := s) ?_ (recordChange_measuring changed) matched
    rw [recordChange_frame changed]; rfl
  | type changed =>
    refine matched_congr (s := s) ?_ (typeChange_measuring changed) matched
    rw [typeChange_frame changed]; rfl
  | machine changed => rw [machineChange_frame changed]; exact matched_congr (s := s) rfl (fun _ => .rfl) matched
  | countersCleared =>
    refine matched_congr (s := s) ?_ (fun _ => .rfl) matched
    funext h
    have cleared : headAt (clearedCounters s) h = { headAt s h with gaugeDiscarded := 0 } := by
      simp [headAt, clearedCounters]
    rw [held, cleared]
    exact holding_slot rfl
  | lineReset => exact matched_lineReset matched
  | sweepEnded | sweepMoved => exact matched_congr (s := s) rfl (fun _ => .rfl) matched

/-! ## Canonical tables with matched captures -/

/-- The tables are canonical and the captures match. -/
def Kept (s : State) : Prop := TablesCanonical s ∧ CapturesMatch s

theorem Kept.records {s : State} (kept : Kept s) : Canonical s.assemblies := ((tablesCanonical_iff s).1 kept.1).1

theorem Kept.matched {s : State} (kept : Kept s) : Matched s := (capturesMatch_iff kept.records).1 kept.2

theorem change_kept {s t : State} (changed : Change s t) (kept : Kept s) : Kept t := by
  have canonical := change_canonical changed kept.1
  exact ⟨canonical, (capturesMatch_iff ((tablesCanonical_iff t).1 canonical).1).2 (change_matched changed kept.matched)⟩

theorem reset_kept : Kept State.reset :=
  ⟨reset_canonical, by simp [CapturesMatch, armedOn, armedCapture, headAt, State.reset, Head.reset]⟩

theorem quiet_kept {s t : State} (quiet : Quiet s t) (kept : Kept s) : Kept t := by rw [quiet]; exact kept

/-- Settles O34: every change of a record or of a capture keeps the MEASURING assemblies and the ARMED slots in step. -/
theorem capturesStayMatched : Obligations.CapturesStayMatched := by
  intro s t canonical captures result
  have kept : Kept t := step_keeps quiet_kept change_kept reset_kept (fun _ _ _ h => h) result ⟨canonical, captures⟩
  exact kept.2

end Sys2Proof.Records

/-! PROOFS. What the captures and the hold windows guard: a held assembly enters neither ISSUED nor MEASURING (R22),
and an unmarked PRESET assembly passes the judgement of R10. -/

namespace Sys2Proof.Judged

open Sys2Proof Sys2Proof.Machine Sys2Proof.Transitions Sys2Proof.Heads Sys2Proof.Records

/-! ## Captures return to contactable states -/

/-- Every capture returns its assembly to a state from which a contact is taken. -/
def PriorsFree (s : State) : Prop := ∀ h n p, held s h = some (n, p) → contactable p = true

theorem priorsFree_of_capturesMatch {s : State} (captures : CapturesMatch s) : PriorsFree s := by
  intro h n p hold
  obtain ⟨c, armed, -, rfl⟩ := held_iff.1 hold
  have sound := captures.1 h
  rw [slot_eq_of_armedCapture.2 armed, Option.all_some, Bool.and_eq_true] at sound
  exact sound.1

theorem priorsFree_congr {s t : State} (same : held t = held s) (free : PriorsFree s) : PriorsFree t := by
  intro h n p hold
  rw [same] at hold
  exact free h n p hold

theorem priorsFree_put {s t : State} {h : Fin 4} {new : Option (Nat × AsmState)}
    (after : ∀ h', held t h' = if h' = h then new else held s h') (contact : ∀ n p, new = some (n, p) → contactable p = true)
    (free : PriorsFree s) : PriorsFree t := by
  intro h' n p hold
  rw [after] at hold
  split at hold
  next => exact contact n p hold
  next => exact free h' n p hold

theorem priorsFree_evaluate {s : State} (n : Nat) (free : PriorsFree s) : PriorsFree (evaluate n s) := by
  rcases held_evaluate n s with ⟨same, -⟩ | ⟨r, -, -, mapped⟩
  · exact priorsFree_congr same free
  · intro h m p hold
    rw [mapped, Option.map_eq_some_iff] at hold
    obtain ⟨⟨k, q⟩, before, made⟩ := hold
    cases made
    dsimp only
    split
    next => exact outcomeOf_contactable _ _ _
    next => exact free h _ _ before

theorem captureChange_priorsFree {s t : State} (changed : CaptureChange s t) (free : PriorsFree s) : PriorsFree t := by
  cases changed with
  | captureAborted h c y ready armed ends =>
    exact priorsFree_put (held_ends ends (setState c.assembly c.prior s) (by funext h'; rw [held, headAt_setState]; rfl))
      (by simp) free
  | captureSettled h c c' r y ready armed same record ends =>
    exact priorsFree_put (s := s) (held_ends ends _ rfl) (by simp) free
  | contactArmed h n r c ready idle record unheld contact names prior =>
    refine priorsFree_put (fun h' => (held_putHead (putAssembly n { r with state := .measuring } s) h h' _)) ?_ free
    intro m p is
    rw [holding_armed rfl, prior] at is
    cases is
    exact contact
  | recordSwept n running next => exact priorsFree_evaluate n free
  | recordReviewed n r record marked => exact priorsFree_evaluate n free

theorem held_clearedCounters (s : State) : held (clearedCounters s) = held s := by
  funext h
  have cleared : headAt (clearedCounters s) h = { headAt s h with gaugeDiscarded := 0 } := by
    simp [headAt, clearedCounters]
  rw [held, cleared]
  exact holding_slot rfl

theorem change_priorsFree {s t : State} (changed : Change s t) (free : PriorsFree s) : PriorsFree t := by
  cases changed with
  | line changed => rw [lineChange_frame changed]; exact free
  | head changed => exact priorsFree_congr (headChange_held changed) free
  | capture changed => exact captureChange_priorsFree changed free
  | record changed => rw [recordChange_frame changed]; exact free
  | type changed => rw [typeChange_frame changed]; exact free
  | machine changed => rw [machineChange_frame changed]; exact free
  | countersCleared => exact priorsFree_congr (held_clearedCounters s) free
  | lineReset =>
    intro h n p hold
    rw [held_lineReset] at hold
    cases hold
  | sweepEnded | sweepMoved => exact free

/-! ## Held assemblies stay put (R22) -/

/-- No held assembly of `s` is ISSUED or MEASURING in `t` unless it was so before. -/
def StaysPut (s t : State) : Prop :=
  ∀ n r', isHeld s n = true → recordAt t n = some r' → r'.state = .issued ∨ r'.state = .measuring →
    ∃ r, recordAt s n = some r ∧ r.state = r'.state

theorem staysPut_of_records {s t : State} (same : recordAt t = recordAt s) : StaysPut s t := by
  intro n r' _ record _
  exact ⟨r', same ▸ record, rfl⟩

/-- One slot changed: its new record is elsewhere, or the old one was there too, or the slot is not held. -/
theorem staysPut_edit {s t : State} {n : Nat} {new : Option Assembly}
    (after : ∀ m, recordAt t m = if m = n then new else recordAt s m)
    (stays : isHeld s n = true → ∀ r', new = some r' → r'.state = .issued ∨ r'.state = .measuring →
      ∃ r, recordAt s n = some r ∧ r.state = r'.state) : StaysPut s t := by
  intro m r' held record is
  rw [after] at record
  split at record
  next here => subst here; exact stays held r' record is
  next => exact ⟨r', record, rfl⟩

theorem staysPut_trans {s u t : State} (holds : u.holds = s.holds) (first : StaysPut s u) (second : StaysPut u t) :
    StaysPut s t := by
  intro n r' held record is
  have held' : isHeld u n = true := by rw [isHeld, holds]; exact held
  obtain ⟨r, before, same⟩ := second n r' held' record is
  obtain ⟨r₀, start, same'⟩ := first n r held before (by rw [same]; exact is)
  exact ⟨r₀, start, same'.trans same⟩

/-- Neither ISSUED nor MEASURING. -/
theorem elsewhere_of_contactable {p : AsmState} (free : contactable p = true) : ¬(p = .issued ∨ p = .measuring) := by
  rintro (rfl | rfl) <;> cases free

theorem evaluated_elsewhere (t : TypeRecord) (r : Assembly)
    (is : (evaluated t r).state = .issued ∨ (evaluated t r).state = .measuring) : (evaluated t r).state = r.state := by
  have never := elsewhere_of_contactable (outcomeOf_contactable t r r.state)
  unfold evaluated at is ⊢
  split at is
  case h_1 | h_2 | h_3 | h_4 | h_5 => exact absurd is never
  all_goals rfl

theorem staysPut_evaluate (n : Nat) (s : State) : StaysPut s (evaluate n s) := by
  intro m r' _ record is
  by_cases here : m = n
  · subst here
    cases old : recordAt s m with
    | none => unfold evaluate at record; rw [old] at record; dsimp only at record; rw [old] at record; cases record
    | some r =>
      rw [recordAt_evaluate_same old] at record
      cases record
      exact ⟨r, rfl, (evaluated_elsewhere _ _ is).symm⟩
  · rw [recordAt_evaluate_other s here] at record
    exact ⟨r', record, rfl⟩

theorem captureChange_staysPut {s t : State} (changed : CaptureChange s t) (free : PriorsFree s) : StaysPut s t := by
  cases changed with
  | captureAborted h c y ready armed ends =>
    refine staysPut_edit (recordAt_setState c.assembly c.prior s) fun _ r' record is => ?_
    obtain ⟨r, -, rfl⟩ := Option.map_eq_some_iff.1 record
    exact absurd is (elsewhere_of_contactable (free h _ _ (held_armed armed)))
  | captureSettled h c c' r y ready armed same record ends =>
    refine staysPut_edit (recordAt_putAssembly _ _ · _) fun _ r' record is => ?_
    cases record
    exact absurd is (elsewhere_of_contactable (outcomeOf_contactable _ _ _))
  | contactArmed h n r c ready idle record unheld =>
    refine staysPut_edit (recordAt_putAssembly _ _ · _) fun held => ?_
    rw [unheld] at held
    cases held
  | recordSwept n running next => exact staysPut_evaluate n s
  | recordReviewed n r record marked => exact staysPut_evaluate n s

theorem recordChange_staysPut {s t : State} (changed : RecordChange s t) : StaysPut s t := by
  have put : ∀ {n : Nat} {r r' : Assembly} {u : State}, recordAt s n = some r → recordAt u = recordAt s →
      (r'.state = .issued ∨ r'.state = .measuring → r'.state = r.state) → StaysPut s (putAssembly n r' u) :=
    fun record same states =>
      staysPut_edit (fun m => by rw [recordAt_putAssembly, same]) fun _ r' new is => by
        cases new
        exact ⟨_, record, (states is).symm⟩
  cases changed with
  | recordUsed n r u record => exact put record rfl fun _ => rfl
  | recordWithdrawn n r u reason record => exact put record rfl (by simp)
  | serviceEntered n r record issued => exact put record rfl (by simp)
  | recordIssued p n r x record unheld preset =>
    refine staysPut_edit (recordAt_putAssembly _ _ · _) fun held => ?_
    rw [unheld] at held
    cases held
  | recordReturned n r draw record out =>
    refine put record rfl ?_
    cases returnOutcome (typeAt s r.type) r draw <;> simp [returnedRecord]
  | recordCreated n t tag low absent =>
    refine staysPut_edit (recordAt_created n t tag _ s) fun _ r' new is => ?_
    cases new
    simp [createdRecord] at is
  | recordRestored n b r low unheld =>
    refine staysPut_edit (recordAt_restored n b _ s) fun held => ?_
    rw [unheld] at held
    cases held
  | recordRetyped n t r record crib usable unmarked =>
    exact put record (by rw [recordAt_countIn, recordAt_countOut]) (evaluated_elsewhere _ _)
  | tagBound n r tag record => exact put record rfl fun _ => rfl
  | tagUnbound n r record =>
    refine staysPut_edit (recordAt_unbindFrom_put n _ r.tag s) fun _ r' new is => ?_
    cases new
    exact ⟨r, record, rfl⟩
  | recordRebuilt n r record retired => exact put record rfl (by simp [rebuiltRecord])
  | recordDeleted n r record crib => exact staysPut_edit (recordAt_deleted n r s) (by simp)

theorem typeChange_staysPut {s t : State} (changed : TypeChange s t) : StaysPut s t := by
  cases changed with
  | typeStored => exact staysPut_of_records rfl
  | typeJudged t new =>
    intro n r' _ record is
    rw [recordAt_markType, Option.map_eq_some_iff] at record
    obtain ⟨r, before, rfl⟩ := record
    exact ⟨r, before, (markRecord_state t r).symm⟩

theorem abortForReset_staysPut {x : Head} (free : ∀ n p, holding x = some (n, p) → contactable p = true) (s : State) :
    StaysPut s (abortForReset s x) := by
  unfold abortForReset
  split
  next c armed =>
    refine staysPut_edit (recordAt_setState c.assembly c.prior s) fun _ r' record is => ?_
    obtain ⟨r, -, rfl⟩ := Option.map_eq_some_iff.1 record
    exact absurd is (elsewhere_of_contactable (free _ _ (holding_armed armed)))
  all_goals exact staysPut_of_records rfl

theorem foldl_abortForReset_staysPut {heads : List Head}
    (free : ∀ x ∈ heads, ∀ n p, holding x = some (n, p) → contactable p = true) (s : State) :
    StaysPut s (heads.foldl abortForReset s) := by
  induction heads generalizing s with
  | nil => exact staysPut_of_records rfl
  | cons x rest ih =>
    refine staysPut_trans ?_ (abortForReset_staysPut (free x List.mem_cons_self) s)
      (ih (fun y hy => free y (List.mem_cons_of_mem _ hy)) _)
    have one := foldl_abortForReset_frame [x] s
    rw [List.foldl_cons, List.foldl_nil] at one
    rw [one]

theorem lineReset_staysPut {s : State} (free : PriorsFree s) : StaysPut s (lineReset s) := by
  rw [lineReset_eq]
  refine foldl_abortForReset_staysPut (fun x hx n p hold => ?_) s
  obtain ⟨h, rfl⟩ := mem_heads_iff.1 hx
  exact free h n p hold

theorem change_staysPut {s t : State} (changed : Change s t) (free : PriorsFree s) : StaysPut s t := by
  cases changed with
  | line changed => rw [lineChange_frame changed]; exact staysPut_of_records rfl
  | head changed => rw [headChange_frame changed]; exact staysPut_of_records rfl
  | capture changed => exact captureChange_staysPut changed free
  | record changed => exact recordChange_staysPut changed
  | type changed => exact typeChange_staysPut changed
  | machine changed => rw [machineChange_frame changed]; exact staysPut_of_records rfl
  | lineReset => exact lineReset_staysPut free
  | countersCleared | sweepEnded | sweepMoved => exact staysPut_of_records rfl

theorem changes_staysPut {s t : State} (chain : Changes s t) (free : PriorsFree s) : StaysPut s t := by
  suffices both : PriorsFree t ∧ StaysPut s t from both.2
  induction chain with
  | refl => exact ⟨free, staysPut_of_records rfl⟩
  | tail before last ih =>
    obtain ⟨free', stays⟩ := ih
    obtain ⟨-, -, -, holds, -⟩ := changes_fix before
    exact ⟨change_priorsFree last free', staysPut_trans holds stays (change_staysPut last free')⟩

theorem staysPut_congr {s t u : State} (same : recordAt u = recordAt t) (stays : StaysPut s t) : StaysPut s u := by
  unfold StaysPut
  rw [same]
  exact stays

theorem staysPut_empty {s t : State} (empty : recordAt t = fun _ => none) : StaysPut s t := by
  intro n r' _ record
  rw [empty] at record
  cases record

theorem recordAt_reset : recordAt State.reset = fun _ => none := rfl

theorem event_staysPut {s t : State} (event : Event s t) (free : PriorsFree s) : StaysPut s t := by
  cases event with
  | stays => exact staysPut_of_records rfl
  | pinReleased => exact staysPut_of_records rfl
  | keyMoved => exact staysPut_of_records rfl
  | partKept p => cases p <;> exact staysPut_of_records rfl
  | worked u _ chain => exact staysPut_congr (recordAt_grants u) (changes_staysPut chain free)
  | answered u a _ _ chain => exact staysPut_congr (recordAt_grants _) (changes_staysPut (t := u) chain free)

theorem wrote_staysPut {s t : State} (wrote : Wrote s t) (free : PriorsFree s) : StaysPut s t := by
  obtain ⟨u, a, -, -, written, rfl⟩ := wrote
  cases written with
  | chain chain => exact staysPut_congr (recordAt_grants _) (changes_staysPut (t := u) chain free)
  | window => exact staysPut_congr (recordAt_grants _) (staysPut_of_records (s := s) rfl)

theorem step_staysPut {s t : State} (result : step s = .next t) (free : PriorsFree s) : StaysPut s t := by
  unfold step at result
  split at result
  next => cases result; exact staysPut_of_records rfl
  next i rest _ =>
    have popped : PriorsFree { s with pending := rest } := free
    suffices stays : StaysPut { s with pending := rest } t from stays
    rcases exec_next result with ⟨-, rfl⟩ | ⟨-, rfl⟩ | event | wrote
    · exact staysPut_empty recordAt_reset
    · exact staysPut_empty recordAt_reset
    · exact event_staysPut event popped
    · exact wrote_staysPut wrote popped

/-- Settles O49: every change that makes an assembly ISSUED or MEASURING needs one that is not held, and a capture
returns its assembly to a contactable state. -/
theorem heldAssembliesStayPut : Obligations.HeldAssembliesStayPut := by
  intro s t n r' captures result held record is
  exact step_staysPut result (priorsFree_of_capturesMatch captures) n r' held record is

end Sys2Proof.Judged

/-! PROOFS. Every unmarked PRESET assembly passes the judgement of R10, and so does every one that may come back to
PRESET without a new judgement. -/

namespace Sys2Proof.Preset

open Sys2Proof Sys2Proof.Machine Sys2Proof.Transitions Sys2Proof.Heads Sys2Proof.Records Sys2Proof.Judged

/-! ## The judgement of a record -/

/-- Every axis that the type requires passes (R10). -/
def Passes (t : TypeRecord) (r : Assembly) : Prop :=
  axisPasses r.length t.nominalL t.lowerL t.upperL = true
    ∧ (t.axes = .lengthRadius → axisPasses r.radius t.nominalR t.lowerR t.upperR = true)

theorem axisPasses_iff (e : Option Entry) (nominal lower upper : Int) :
    axisPasses e nominal lower upper = true
      ↔ complete e = true ∧ isClamped e = false ∧ withinTolerance e nominal lower upper = true := by
  cases e with
  | none => simp [axisPasses, complete]
  | some x => simp [axisPasses, complete, isClamped, withinTolerance, and_assoc]

theorem passes_of_verdict {t : TypeRecord} {r : Assembly} (pass : verdictOf t r = .pass) : Passes t r := by
  unfold verdictOf at pass
  split_ifs at pass with incomplete clamped long wide
  simp only [allComplete, Bool.not_eq_false, Bool.and_eq_true, Bool.or_eq_true] at incomplete
  simp only [Bool.or_eq_true, not_or, Bool.and_eq_true, not_and, Bool.not_eq_true] at clamped wide
  obtain ⟨length, radius⟩ := incomplete
  obtain ⟨lengthClear, radiusClear⟩ := clamped
  refine ⟨(axisPasses_iff _ _ _ _).2 ⟨length, lengthClear, by simpa using long⟩, fun both => ?_⟩
  have needs : needsRadius t = true := by simp [needsRadius, both]
  rw [needs] at radius
  exact (axisPasses_iff _ _ _ _).2 ⟨by simpa using radius, radiusClear needs, by simpa using wide needs⟩

theorem passes_of_outcome {t : TypeRecord} {r : Assembly} {start : AsmState} (preset : outcomeOf t r start = .preset) :
    Passes t r := by
  unfold outcomeOf at preset
  split at preset
  next pass => exact passes_of_verdict pass
  next => cases preset
  next => cases preset
  next => cases preset
  next => split_ifs at preset

/-- The judgement looks at what a tolerance write changes and at nothing else of the type (R31). -/
theorem passes_congr {t t' : TypeRecord} (same : isToleranceWrite t t' = false) (r : Assembly) :
    Passes t' r ↔ Passes t r := by
  simp only [isToleranceWrite, Bool.or_eq_false_iff, decide_eq_false_iff_not, ne_eq, not_not] at same
  obtain ⟨⟨⟨⟨⟨⟨axes, nominalL⟩, lowerL⟩, upperL⟩, nominalR⟩, lowerR⟩, upperR⟩ := same
  rw [Passes, Passes, axes, nominalL, lowerL, upperL, nominalR, lowerR, upperR]

/-- A record whose state says that it passed: PRESET, or out of the crib with no recheck due. -/
def Cleared (r : Assembly) : Prop := r.state = .preset ∨ (r.state = .issued ∨ r.state = .inService) ∧ r.recheck = false

theorem not_cleared_of_state {r : Assembly} (preset : r.state ≠ .preset) (issued : r.state ≠ .issued)
    (service : r.state ≠ .inService) : ¬Cleared r := by
  rintro (is | ⟨is | is, -⟩)
  · exact preset is
  · exact issued is
  · exact service is

theorem passes_of_evaluated {t : TypeRecord} {r : Assembly} (cleared : Cleared (evaluated t r)) :
    Passes t (evaluated t r) := by
  rcases evaluated_cases t r with ⟨-, inCrib⟩ | ⟨out, outside⟩ | ⟨state, kept⟩
  · rw [inCrib] at cleared ⊢
    rcases cleared with preset | ⟨state, -⟩
    · exact (passes_of_outcome preset :)
    · have free := outcomeOf_contactable t r r.state
      rcases state with is | is <;> rw [show outcomeOf t r r.state = _ from is] at free <;> cases free
  · rw [outside] at cleared ⊢
    rcases cleared with preset | ⟨-, recheck⟩
    · rw [show r.state = .preset from preset] at out
      cases out
    · simp only [Bool.or_eq_false_iff, decide_eq_false_iff_not, ne_eq, not_not] at recheck
      exact (passes_of_outcome recheck.2 :)
  · rw [kept] at cleared
    refine absurd cleared (not_cleared_of_state ?_ ?_ ?_) <;> rcases state with is | is <;> simp [is]

theorem passes_of_restored {t : TypeRecord} {r : Assembly} (cleared : Cleared (restoredRecord t r)) :
    Passes t (restoredRecord t r) := by
  have judged : ∀ start, Cleared { r with state := outcomeOf t r start } → Passes t r := by
    rintro start (preset | ⟨state, -⟩)
    · exact passes_of_outcome preset
    · have free := outcomeOf_contactable t r start
      rcases state with is | is <;> rw [show outcomeOf t r start = _ from is] at free <;> cases free
  unfold restoredRecord at cleared ⊢
  cases state : r.state <;> simp only [state] at cleared ⊢
  case preset | rejected => exact (judged _ cleared :)
  case issued | inService => exact passes_of_evaluated cleared
  all_goals exact absurd cleared (by simp [Cleared, state])

theorem passes_of_settled {h : Fin 4} {c : Capture} {t : TypeRecord} {r : Assembly}
    (cleared : Cleared (settledRecord h c t r)) : Passes t (settledRecord h c t r) := by
  unfold settledRecord at cleared ⊢
  dsimp only at cleared ⊢
  rcases cleared with preset | ⟨state, -⟩
  · exact (passes_of_outcome preset :)
  · have free := outcomeOf_contactable t (withEntry c.axis
      ⟨resultOf c.axis (meanOf c.history), true, c.history.any (·.clamped), h, c.bank⟩ r) (withEntry c.axis
      ⟨resultOf c.axis (meanOf c.history), true, c.history.any (·.clamped), h, c.bank⟩ r).state
    rcases state with is | is <;> rw [show outcomeOf _ _ _ = _ from is] at free <;> cases free

/-- A plain return needs no withdrawal and no recheck (R110). -/
theorem plain_of_returned {t : TypeRecord} {r : Assembly} {draw : Nat} (out : outOfCrib r.state = true)
    (cleared : Cleared (returnedRecord (returnOutcome t r draw) r)) :
    Cleared r ∧ returnedRecord (returnOutcome t r draw) r = { r with state := .preset, location := none, recheck := false } := by
  unfold returnOutcome at cleared ⊢
  split_ifs at cleared ⊢ with withdrawn recheck audit
  · exact absurd cleared (by simp [Cleared, returnedRecord])
  · exact absurd cleared (by simp [Cleared, returnedRecord])
  · exact absurd cleared (by simp [Cleared, returnedRecord])
  · refine ⟨.inr ⟨?_, by simpa using recheck⟩, rfl⟩
    cases state : r.state <;> simp_all [outOfCrib]

/-! ## Sound states -/

/-- `PresetSound` over the records and the captures of a canonical state. -/
def Sound (s : State) : Prop :=
  ∀ n r, recordAt s n = some r → r.marked = false → Cleared r ∨ (∃ h, held s h = some (n, .preset)) →
    Passes (typeAt s r.type) r

theorem presetSound_iff {s : State} (canonical : Canonical s.assemblies) : PresetSound s ↔ Sound s := by
  have waits : ∀ n, (∃ h : Fin 4, ((armedCapture (headAt s h)).any fun c => c.assembly = n && c.prior = .preset) = true)
      ↔ ∃ h, held s h = some (n, .preset) := by
    intro n
    refine exists_congr fun h => ?_
    simp only [Option.any_eq_true, slot_eq_of_armedCapture, Bool.and_eq_true, decide_eq_true_eq, held_iff]
  unfold PresetSound
  simp only [waits]
  refine (forall_mem_iff canonical (p := fun n r => r.marked = false →
    (r.state = .preset ∨ (r.state = .issued ∨ r.state = .inService) ∧ r.recheck = false
      ∨ ∃ h, held s h = some (n, .preset)) → Passes (typeAt s r.type) r)).trans ?_
  refine forall_congr' fun n => forall_congr' fun r => imp_congr_right fun _ => imp_congr_right fun _ => ?_
  rw [Cleared, or_assoc]

theorem sound_congr {s t : State} (records : recordAt t = recordAt s) (captures : held t = held s)
    (types : ∀ k, isToleranceWrite (typeAt s k) (typeAt t k) = false) (sound : Sound s) : Sound t := by
  intro n r record unmarked cleared
  rw [records] at record
  rw [captures] at cleared
  exact (passes_congr (types r.type) r).2 (sound n r record unmarked cleared)

/-- One slot changed. -/
theorem sound_edit {s t : State} {n : Nat} {new : Option Assembly}
    (after : ∀ m, recordAt t m = if m = n then new else recordAt s m)
    (captures : ∀ h m, m ≠ n → held t h = some (m, .preset) → held s h = some (m, .preset))
    (types : ∀ k, isToleranceWrite (typeAt s k) (typeAt t k) = false)
    (edited : ∀ r, new = some r → r.marked = false → Cleared r ∨ (∃ h, held t h = some (n, .preset)) →
      Passes (typeAt s r.type) r) (sound : Sound s) : Sound t := by
  intro m r record unmarked cleared
  rw [passes_congr (types r.type)]
  rw [after] at record
  split at record
  next here => subst here; exact edited r record unmarked cleared
  next other =>
    exact sound m r record unmarked (cleared.imp_right fun ⟨h, hold⟩ => ⟨h, captures h m other hold⟩)

theorem isToleranceWrite_self (t : TypeRecord) : isToleranceWrite t t = false := by simp [isToleranceWrite]

/-- An in-use count is no part of the judgement. -/
theorem isToleranceWrite_counted {s t : State} {k count : Nat}
    (same : t.types = (putType k { typeAt s k with inUse := count } s).types) (m : Nat) :
    isToleranceWrite (typeAt s m) (typeAt t m) = false := by
  have now : typeAt t m = typeAt (putType k { typeAt s k with inUse := count } s) m := by rw [typeAt, typeAt, same]
  rw [now, typeAt_putType]
  split
  next here => rw [here.1]; simp [isToleranceWrite]
  next => exact isToleranceWrite_self _

theorem isToleranceWrite_trans {a b c : TypeRecord} (first : isToleranceWrite a b = false)
    (second : isToleranceWrite b c = false) : isToleranceWrite a c = false := by
  simp only [isToleranceWrite, Bool.or_eq_false_iff, decide_eq_false_iff_not, ne_eq, not_not] at *
  obtain ⟨⟨⟨⟨⟨⟨axes, nominalL⟩, lowerL⟩, upperL⟩, nominalR⟩, lowerR⟩, upperR⟩ := first
  rw [axes, nominalL, lowerL, upperL, nominalR, lowerR, upperR]
  exact second

/-! ## Every change keeps the records sound -/

theorem not_held {s : State} {n : Nat} (matched : Matched s) (free : ∀ r, recordAt s n = some r → r.state ≠ .measuring)
    (h : Fin 4) (p : AsmState) : held s h ≠ some (n, p) := by
  intro hold
  obtain ⟨r, record, is⟩ := (matched.sound hold).2
  exact free r record is

theorem sound_evaluate {s : State} (n : Nat) (matched : Matched s) (sound : Sound s) : Sound (evaluate n s) := by
  have types : ∀ k, typeAt (evaluate n s) k = typeAt s k := by intro k; rw [evaluate_frame]; rfl
  cases record : recordAt s n with
  | none =>
    unfold evaluate
    rw [record]
    exact sound
  | some r =>
    have after : ∀ m, recordAt (evaluate n s) m = if m = n then some (evaluated (typeAt s r.type) r) else recordAt s m := by
      intro m
      split
      next here => rw [here, recordAt_evaluate_same record]
      next other => rw [recordAt_evaluate_other s other]
    have type : (evaluated (typeAt s r.type) r).type = r.type := (evaluated_fixes _ _).1
    have entries : Passes (typeAt s r.type) (evaluated (typeAt s r.type) r) ↔ Passes (typeAt s r.type) r := by
      unfold evaluated
      split <;> rfl
    refine sound_edit after (fun h m other hold => ?_) (fun k => by rw [types]; exact isToleranceWrite_self _) ?_ sound
    · rcases held_evaluate n s with ⟨same, -⟩ | ⟨r', -, -, mapped⟩
      · rw [same] at hold; exact hold
      · rw [mapped, Option.map_eq_some_iff] at hold
        obtain ⟨⟨k, q⟩, before, made⟩ := hold
        simp only [Prod.mk.injEq] at made
        obtain ⟨rfl, is⟩ := made
        rw [if_neg other] at is
        rw [before, is]
    · rintro _ ⟨⟩ - cleared
      rw [type]
      rcases cleared with cleared | ⟨h, hold⟩
      · exact passes_of_evaluated cleared
      · rw [entries]
        rcases held_evaluate n s with ⟨same, free⟩ | ⟨r', record', -, mapped⟩
        · rw [same] at hold
          exact absurd hold (not_held matched free h _)
        · rw [record] at record'
          cases record'
          rw [mapped, Option.map_eq_some_iff] at hold
          obtain ⟨⟨k, q⟩, before, made⟩ := hold
          simp only [Prod.mk.injEq] at made
          obtain ⟨rfl, is⟩ := made
          rw [if_pos rfl] at is
          exact passes_of_outcome is

theorem sound_aborted {s t : State} {h : Fin 4} {n : Nat} {p : AsmState} (free : contactable p = true)
    (hold : held s h = some (n, p))
    (after : ∀ m, recordAt t m = if m = n then (recordAt s n).map fun r => { r with state := p } else recordAt s m)
    (captures : ∀ h m q, held t h = some (m, q) → held s h = some (m, q))
    (types : ∀ k, isToleranceWrite (typeAt s k) (typeAt t k) = false) (sound : Sound s) : Sound t := by
  refine sound_edit after (fun h' m _ => captures h' m _) types ?_ sound
  intro r' new unmarked cleared
  obtain ⟨r, record, rfl⟩ := Option.map_eq_some_iff.1 new
  have prior : ∃ h', held s h' = some (n, .preset) := by
    rcases cleared with (preset | ⟨is | is, -⟩) | ⟨h', hold'⟩
    · exact ⟨h, by rw [hold]; rw [show p = .preset from preset]⟩
    · rw [show p = .issued from is] at free; cases free
    · rw [show p = .inService from is] at free; cases free
    · exact ⟨h', captures h' n _ hold'⟩
  exact (sound n r record unmarked (.inr prior) :)

/-- A capture that stands after another one has ended stood before. -/
theorem held_of_ends {s u : State} {h h' : Fin 4} {y : Head} {m : Nat} {q : AsmState} (ends : HeadEnds (headAt s h) y)
    (same : held u = held s) (hold : held (putHead h y u) h' = some (m, q)) : h' ≠ h ∧ held s h' = some (m, q) := by
  rw [held_ends ends u same] at hold
  split at hold
  next => cases hold
  next other => exact ⟨other, hold⟩

theorem captureChange_sound {s t : State} (changed : CaptureChange s t) (matched : Matched s) (sound : Sound s) :
    Sound t := by
  cases changed with
  | captureAborted h c y ready armed ends =>
    have hold := held_armed armed
    have same : held (setState c.assembly c.prior s) = held s := by funext h'; rw [held, headAt_setState]; rfl
    refine sound_aborted (matched.sound hold).1 hold (recordAt_setState c.assembly c.prior s) 
      (fun h' m q hold' => (held_of_ends ends same hold').2) (fun k => ?_) sound
    rw [typeAt_putHead, typeAt_setState]; exact isToleranceWrite_self _
  | captureSettled h c c' r y ready armed same record ends =>
    have hold := held_armed armed
    refine sound_edit (s := s) (recordAt_putAssembly _ _ · _) (fun h' m _ hold' => (held_of_ends ends rfl hold').2)
      (fun k => isToleranceWrite_self _) ?_ sound
    · rintro _ ⟨⟩ - cleared
      have type : (settledRecord h c' (typeAt s r.type) r).type = r.type := by
        unfold settledRecord withEntry
        cases c'.axis <;> rfl
      rw [type]
      refine passes_of_settled (cleared.resolve_right ?_)
      rintro ⟨h', hold'⟩
      obtain ⟨other, before⟩ := held_of_ends (s := s) ends rfl hold'
      exact other (matched.once before hold)
  | contactArmed h n r c ready idle record unheld free names prior =>
    have captures : ∀ h' m, held (putHead h { headAt s h with slot := .armed c }
        (putAssembly n { r with state := .measuring } s)) h' = some (m, .preset) →
        held s h' = some (m, .preset) ∨ m = n ∧ r.state = .preset := by
      intro h' m hold
      rw [held_putHead, holding_armed rfl, names, prior] at hold
      split at hold
      next =>
        rw [Option.some_inj, Prod.mk.injEq] at hold
        exact .inr ⟨hold.1.symm, hold.2⟩
      next => exact .inl hold
    refine sound_edit (recordAt_putAssembly _ _ · _) (fun h' m other hold => ?_) (fun k => isToleranceWrite_self _) ?_ sound
    · exact (captures h' m hold).resolve_right fun both => other both.1
    · rintro _ ⟨⟩ unmarked (cleared | ⟨h', hold⟩)
      · exact absurd cleared (by simp [Cleared])
      · refine (sound n r record unmarked ?_ :)
        rcases captures h' n hold with before | ⟨-, preset⟩
        · exact .inr ⟨h', before⟩
        · exact .inl (.inl preset)
  | recordSwept n running next => exact sound_evaluate n matched sound
  | recordReviewed n r record marked => exact sound_evaluate n matched sound

theorem types_countIn (k : Nat) (s : State) (m : Nat) : isToleranceWrite (typeAt s m) (typeAt (countIn k s) m) = false :=
  isToleranceWrite_counted (k := k) rfl m

theorem types_countOut (k : Nat) (s : State) (m : Nat) : isToleranceWrite (typeAt s m) (typeAt (countOut k s) m) = false :=
  isToleranceWrite_counted (k := k) rfl m

theorem types_dropRecord (old : Option Assembly) (s : State) (m : Nat) :
    isToleranceWrite (typeAt s m) (typeAt (dropRecord old s) m) = false := by
  cases old with
  | none => exact isToleranceWrite_self _
  | some r =>
    rw [dropRecord_some]
    have counted := types_countOut r.type (unbindFrom r.tag s) m
    rw [typeAt_unbindFrom] at counted
    exact counted

theorem recordChange_held {s t : State} (changed : RecordChange s t) : held t = held s := by
  rw [recordChange_frame changed]; rfl

theorem recordChange_sound {s t : State} (changed : RecordChange s t) (matched : Matched s) (sound : Sound s) :
    Sound t := by
  have held_ := recordChange_held changed
  have edit : ∀ {n : Nat} {new : Option Assembly}, (∀ m, recordAt t m = if m = n then new else recordAt s m) →
      (∀ k, isToleranceWrite (typeAt s k) (typeAt t k) = false) →
      (∀ r, new = some r → r.marked = false → Cleared r ∨ (∃ h, held s h = some (n, .preset)) →
        Passes (typeAt s r.type) r) → Sound t :=
    fun after types edited =>
      sound_edit after (fun h m _ hold => by rw [held_] at hold; exact hold) types (by rw [held_]; exact edited) sound
  cases changed with
  | recordUsed n r u record =>
    refine edit (recordAt_putAssembly _ _ · _) (fun k => isToleranceWrite_self _) ?_
    rintro _ ⟨⟩ unmarked cleared
    exact (sound n r record unmarked cleared :)
  | recordWithdrawn n r u reason record out =>
    refine edit (recordAt_putAssembly _ _ · _) (fun k => isToleranceWrite_self _) ?_
    rintro _ ⟨⟩ unmarked (cleared | waits)
    · exact absurd cleared (by simp [Cleared])
    · exact (sound n r record unmarked (.inr waits) :)
  | serviceEntered n r record issued =>
    refine edit (recordAt_putAssembly _ _ · _) (fun k => isToleranceWrite_self _) ?_
    rintro _ ⟨⟩ unmarked cleared
    refine (sound n r record unmarked (cleared.imp_left ?_) :)
    rintro (preset | ⟨-, recheck⟩)
    · cases preset
    · exact .inr ⟨.inl issued, recheck⟩
  | recordIssued p n r x record unheld preset =>
    refine edit (recordAt_putAssembly _ _ · _) (fun k => isToleranceWrite_self _) ?_
    rintro _ ⟨⟩ unmarked -
    exact (sound n r record unmarked (.inl (.inl preset)) :)
  | recordReturned n r draw record out =>
    refine edit (recordAt_putAssembly _ _ · _) (fun k => isToleranceWrite_self _) ?_
    rintro _ ⟨⟩ unmarked (cleared | ⟨h, hold⟩)
    · obtain ⟨before, made⟩ := plain_of_returned out cleared
      rw [made] at unmarked ⊢
      exact (sound n r record unmarked (.inl before) :)
    · refine absurd hold (not_held matched (fun r' record' => ?_) h _)
      rw [record] at record'
      cases record'
      exact ne_measuring_of_outOfCrib out
  | recordCreated n t tag low absent =>
    refine edit (recordAt_created n t tag _ s) (fun k => ?_) ?_
    · have counted := types_countIn t (bindTo n tag (putAssembly n (createdRecord t tag) s)) k
      rwa [typeAt_bindTo, typeAt_putAssembly] at counted
    · rintro _ ⟨⟩ - (cleared | ⟨h, hold⟩)
      · exact absurd cleared (by simp [Cleared, createdRecord])
      · exact absurd hold (not_held matched (by simp [absent]) h _)
  | recordRestored n b r low unheld replaceable described =>
    refine edit (recordAt_restored n b _ s) (fun k => ?_) ?_
    · have counted := types_countIn b.type (bindTo n b.tag (putAssembly n (restoredRecord (typeAt s b.type) r)
        (dropRecord (recordAt s n) s))) k
      rw [typeAt_bindTo, typeAt_putAssembly] at counted
      rw [enterPlace_frame]
      exact isToleranceWrite_trans (types_dropRecord (recordAt s n) s k) counted
    · rintro _ ⟨⟩ - (cleared | ⟨h, hold⟩)
      · obtain ⟨type, -, -, unmarked, -⟩ := describedRecord?_spec described
        rw [(restoredRecord_fixes _ unmarked).1, type]
        exact passes_of_restored cleared
      · exact absurd hold (not_held matched (fun old record => ne_measuring_of_inCrib (replaceable old record)) h _)
  | recordRetyped n k r record crib =>
    refine edit (recordAt_retyped n k r.type _ s) (fun m => ?_) ?_
    · rw [typeAt_putAssembly]
      exact isToleranceWrite_trans (types_countOut r.type s m) (types_countIn k (countOut r.type s) m)
    · rintro _ ⟨⟩ - (cleared | ⟨h, hold⟩)
      · rw [(evaluated_fixes _ _).1]
        exact passes_of_evaluated cleared
      · refine absurd hold (not_held matched (fun r' record' => ?_) h _)
        rw [record] at record'
        cases record'
        exact ne_measuring_of_inCrib crib
  | tagBound n r tag record =>
    refine edit (recordAt_putAssembly _ _ · _) (fun k => isToleranceWrite_self _) ?_
    rintro _ ⟨⟩ unmarked cleared
    exact (sound n r record unmarked cleared :)
  | tagUnbound n r record =>
    refine edit (recordAt_unbindFrom_put n _ r.tag s) (fun k => ?_) ?_
    · rw [typeAt_unbindFrom]; exact isToleranceWrite_self _
    · rintro _ ⟨⟩ unmarked cleared
      exact (sound n r record unmarked cleared :)
  | recordRebuilt n r record retired =>
    refine edit (recordAt_putAssembly _ _ · _) (fun k => isToleranceWrite_self _) ?_
    rintro _ ⟨⟩ - (cleared | ⟨h, hold⟩)
    · exact absurd cleared (by simp [Cleared, rebuiltRecord])
    · refine absurd hold (not_held matched (fun r' record' => ?_) h _)
      rw [record] at record'
      cases record'
      simp [retired]
  | recordDeleted n r record crib =>
    refine edit (recordAt_deleted n r s) (fun k => ?_) (by simp)
    rw [dropRecord_frame]
    exact types_dropRecord (some r) s k

/-- A tolerance write marks every record of its type that the write could invalidate (R32). -/
theorem typeChange_sound {s t : State} (changed : TypeChange s t) (matched : Matched s) (sound : Sound s) : Sound t := by
  cases changed with
  | typeStored k new low legal counted kept untouched =>
    refine sound_congr (s := s) rfl rfl (fun m => ?_) sound
    rw [typeAt_putType]
    split
    next here => rw [here.1]; exact untouched
    next => exact isToleranceWrite_self _
  | typeJudged k new low =>
    intro n r record unmarked cleared
    rw [recordAt_markType, Option.map_eq_some_iff] at record
    obtain ⟨r₀, record, rfl⟩ := record
    have spared : toBeMarked k r₀ = false := by
      by_contra marks
      rw [Bool.not_eq_false] at marks
      simp [markRecord, marks] at unmarked
    rw [markRecord, spared] at unmarked cleared ⊢
    by_cases here : r₀.type = k
    · have safe : markable r₀.state = false := by simpa [toBeMarked, here] using spared
      rcases cleared with (preset | ⟨is | is, -⟩) | ⟨h, hold⟩
      · rw [show r₀.state = .preset from preset] at safe; cases safe
      · rw [show r₀.state = .issued from is] at safe; cases safe
      · rw [show r₀.state = .inService from is] at safe; cases safe
      · refine absurd hold (not_held matched (fun r' record' is => ?_) h _)
        rw [show recordAt s n = some r₀ from record] at record'
        cases record'
        rw [is] at safe
        cases safe
    · have type : typeAt (markType k (putType k new s)) r₀.type = typeAt s r₀.type := by
        rw [show typeAt (markType k (putType k new s)) = typeAt (putType k new s) from rfl, typeAt_putType,
          if_neg fun both => here both.1]
      have kept := sound n r₀ record unmarked cleared
      rw [← type] at kept
      exact kept

theorem sound_lineReset {s : State} (matched : Matched s) (sound : Sound s) : Sound (lineReset s) := by
  have types : ∀ k, typeAt (lineReset s) k = typeAt s k := by intro k; rw [lineReset_eq]; rfl
  intro n r record unmarked cleared
  have released : Cleared r := cleared.resolve_right (by rintro ⟨h, hold⟩; rw [held_lineReset] at hold; cases hold)
  rw [types]
  by_cases free : ∀ h p, held s h ≠ some (n, p)
  · rw [recordAt_lineReset_free free] at record
    exact sound n r record unmarked (.inl released)
  · push Not at free
    obtain ⟨h, p, hold⟩ := free
    rw [recordAt_lineReset_held hold fun h' q other => matched.once other hold, Option.map_eq_some_iff] at record
    obtain ⟨r₀, record, rfl⟩ := record
    have contact := (matched.sound hold).1
    rcases released with preset | ⟨is | is, -⟩
    · rw [show p = .preset from preset] at hold
      exact (sound n r₀ record unmarked (.inr ⟨h, hold⟩) :)
    · rw [show p = .issued from is] at contact; cases contact
    · rw [show p = .inService from is] at contact; cases contact

theorem change_sound {s t : State} (changed : Change s t) (matched : Matched s) (sound : Sound s) : Sound t := by
  have same : ∀ k, isToleranceWrite (typeAt s k) (typeAt s k) = false := fun _ => isToleranceWrite_self _
  cases changed with
  | line changed => rw [lineChange_frame changed]; exact sound
  | head changed =>
    refine sound_congr ?_ (headChange_held changed) ?_ sound
    all_goals rw [headChange_frame changed]
    · rfl
    · exact same
  | capture changed => exact captureChange_sound changed matched sound
  | record changed => exact recordChange_sound changed matched sound
  | type changed => exact typeChange_sound changed matched sound
  | machine changed => rw [machineChange_frame changed]; exact sound
  | countersCleared => exact sound_congr (s := s) rfl (held_clearedCounters s) same sound
  | lineReset => exact sound_lineReset matched sound
  | sweepEnded | sweepMoved => exact sound

/-- The invariant behind `PresetSound`. -/
def SoundlyKept (s : State) : Prop := Kept s ∧ PresetSound s

theorem change_soundlyKept {s t : State} (changed : Change s t) (keeps : SoundlyKept s) : SoundlyKept t := by
  obtain ⟨kept, sound⟩ := keeps
  have kept' := change_kept changed kept
  exact ⟨kept', (presetSound_iff kept'.records).2 (change_sound changed kept.matched ((presetSound_iff kept.records).1 sound))⟩

/-- Settles O48: an assembly becomes PRESET, or loses its mark, by a judgement that it passes, by the end of a capture
that found it PRESET, or by a return that asks for no new judgement. -/
theorem presetStaysSound : Obligations.PresetStaysSound := by
  intro s t canonical captures sound result
  have start : SoundlyKept State.reset := ⟨reset_kept, by simp [PresetSound, State.reset]⟩
  have keeps : SoundlyKept t := step_keeps (fun quiet h => by rw [quiet]; exact h) change_soundlyKept start
    (fun _ _ _ h => h) result ⟨⟨canonical, captures⟩, sound⟩
  exact keeps.2

end Sys2Proof.Preset

/-! PROOFS. The tag map, the in-use counts and the mark count agree with the records after every change. -/

namespace Sys2Proof.Counted

open Sys2Proof Sys2Proof.Machine Sys2Proof.Transitions Sys2Proof.Heads Sys2Proof.Records

/-! ## A table that indexes the records by a key -/

/-- The table answers a key with the one number that has it. -/
def Indexes (table : Table Nat) (key : Nat → Option Nat) : Prop := ∀ x n, tableGet table x = some n ↔ key n = some x

/-- One number takes another key, which no other number has. -/
theorem indexes_edit {table table' : Table Nat} {key key' : Nat → Option Nat} {n : Nat} {new : Option Nat}
    (indexes : Indexes table key) (after : ∀ m, key' m = if m = n then new else key m)
    (entries : ∀ x, tableGet table' x
      = if new = some x then some n else if key n = some x then none else tableGet table x)
    (free : ∀ x, new = some x → ∀ m, tableGet table x = some m → m = n) : Indexes table' key' := by
  intro x m
  rw [entries, after]
  by_cases here : m = n
  · subst here
    rw [if_pos rfl]
    by_cases is : new = some x
    · simp [is]
    · by_cases was : key m = some x
      · simp [is, was]
      · simp [is, was, indexes x m]
  · rw [if_neg here]
    by_cases is : new = some x
    · have other : key m ≠ some x := fun has => here (free x is m ((indexes x m).2 has))
      simp [is, other, Ne.symm here]
    · by_cases was : key n = some x
      · have other : key m ≠ some x := by
          intro has
          have both := ((indexes x m).2 has).symm.trans ((indexes x n).2 was)
          cases both
          exact here rfl
        simp [is, was, other]
      · simp [is, was, indexes x m]

theorem indexes_congr {table table' : Table Nat} {key key' : Nat → Option Nat} (entries : table' = table)
    (keys : key' = key) (indexes : Indexes table key) : Indexes table' key' := by
  rw [entries, keys]
  exact indexes

/-! ## Counting records -/

/-- A slot's new content in a table: a record, or none. -/
def edited (table : Table Assembly) (n : Nat) : Option Assembly → Table Assembly
  | some r => tableSet table n r
  | none => tableErase table n

theorem tableGet_edited (table : Table Assembly) (n : Nat) (new : Option Assembly) (m : Nat) :
    tableGet (edited table n new) m = if m = n then new else tableGet table m := by
  cases new with
  | some r => exact tableGet_tableSet _ _ _ _
  | none => exact tableGet_tableErase _ _ _

theorem tableGet_none_of_lt {t : Table Assembly} {n : Nat} (after : ∀ e ∈ t, n < e.1) : tableGet t n = none := by
  cases get : tableGet t n with
  | none => rfl
  | some a =>
    have := after _ (mem_of_tableGet get)
    simp at this

theorem tableErase_of_lt {t : Table Assembly} {n : Nat} (after : ∀ e ∈ t, n < e.1) : tableErase t n = t :=
  List.filter_eq_self.2 fun e he => by simpa using Nat.ne_of_gt (after e he)

/-- One record in a table's count. -/
theorem countP_cons_record (p : Assembly → Bool) (e : Nat × Assembly) (t : Table Assembly) :
    (e :: t).countP (fun e => p e.2) = t.countP (fun e => p e.2) + (p e.2).toNat := by
  rw [List.countP_cons]
  cases p e.2 <;> rfl

theorem countP_tableErase {t : Table Assembly} (rising : t.Pairwise fun a b => a.1 < b.1) (p : Assembly → Bool) (n : Nat) :
    (tableErase t n).countP (fun e => p e.2) + ((tableGet t n).any p).toNat = t.countP (fun e => p e.2) := by
  induction t with
  | nil => rfl
  | cons e rest ih =>
    obtain ⟨k, b⟩ := e
    obtain ⟨after, rising⟩ := List.pairwise_cons.1 rising
    by_cases here : k = n
    · subst here
      have erased : tableErase ((k, b) :: rest) k = rest := by
        rw [tableErase, List.filter_cons_of_neg (by simp)]
        exact tableErase_of_lt after
      rw [erased, countP_cons_record]
      simp [tableGet]
    · have erased : tableErase ((k, b) :: rest) n = (k, b) :: tableErase rest n := List.filter_cons_of_pos (by simpa)
      rw [erased, countP_cons_record, countP_cons_record, ← ih rising, tableGet, if_neg here]
      omega

theorem countP_tableSet {t : Table Assembly} (rising : t.Pairwise fun a b => a.1 < b.1) (p : Assembly → Bool) (n : Nat)
    (a : Assembly) : (tableSet t n a).countP (fun e => p e.2) + ((tableGet t n).any p).toNat
      = t.countP (fun e => p e.2) + (p a).toNat := by
  induction t with
  | nil => cases is : p a <;> simp [tableSet, tableGet, is]
  | cons e rest ih =>
    obtain ⟨k, b⟩ := e
    obtain ⟨after, rising⟩ := List.pairwise_cons.1 rising
    rw [tableSet]
    split_ifs with before here
    · have absent : tableGet ((k, b) :: rest) n = none := by
        refine tableGet_none_of_lt fun e he => ?_
        rcases List.mem_cons.1 he with rfl | he
        · exact before
        · exact before.trans (after e he)
      rw [absent, countP_cons_record]
      simp
    · subst here
      simp only [countP_cons_record, tableGet, if_true, Option.any_some]
      omega
    · simp only [countP_cons_record, tableGet, if_neg (Ne.symm here)]
      have := ih rising
      omega

theorem countP_edited {t : Table Assembly} (rising : t.Pairwise fun a b => a.1 < b.1) (p : Assembly → Bool) (n : Nat)
    (new : Option Assembly) : (edited t n new).countP (fun e => p e.2) + ((tableGet t n).any p).toNat
      = t.countP (fun e => p e.2) + (new.any p).toNat := by
  cases new with
  | some r => exact countP_tableSet rising p n r
  | none => exact countP_tableErase rising p n

/-! ## Records that keep a property -/

/-- The records of `t` are those of `s` but for what `f` does not look at. -/
def SameBy {β : Type} (f : Assembly → β) (s t : State) : Prop :=
  (∀ n, (recordAt t n).map f = (recordAt s n).map f)
    ∧ ∀ p : β → Bool, t.assemblies.countP (fun e => p (f e.2)) = s.assemblies.countP fun e => p (f e.2)

variable {β : Type} {f : Assembly → β}

theorem sameBy_of_assemblies {s t : State} (same : t.assemblies = s.assemblies) : SameBy f s t :=
  ⟨fun n => by rw [recordAt, recordAt, same], fun p => by rw [same]⟩

theorem SameBy.trans {s u t : State} (first : SameBy f s u) (second : SameBy f u t) : SameBy f s t :=
  ⟨fun n => (second.1 n).trans (first.1 n), fun p => (second.2 p).trans (first.2 p)⟩

theorem sameBy_put {s t : State} {n : Nat} {r r' : Assembly} (canonical : Canonical s.assemblies)
    (record : recordAt s n = some r) (stored : t.assemblies = tableSet s.assemblies n r') (same : f r' = f r) :
    SameBy f s t := by
  refine ⟨fun m => ?_, fun p => ?_⟩
  · rw [recordAt, stored, tableGet_tableSet]
    split
    next here => rw [here, record]; exact congrArg some same
    next => rfl
  · have count := countP_tableSet canonical.1 (fun x => p (f x)) n r'
    rw [show tableGet s.assemblies n = some r from record, Option.any_some, same] at count
    rw [stored]
    exact Nat.add_right_cancel count

theorem sameBy_setState {s : State} (canonical : Canonical s.assemblies) (n : Nat) (state : AsmState)
    (blind : ∀ r, f { r with state := state } = f r) : SameBy f s (setState n state s) := by
  cases record : recordAt s n with
  | none => rw [setState, record]; exact sameBy_of_assemblies rfl
  | some r => rw [setState_of_record record]; exact sameBy_put canonical record rfl (blind r)

theorem sameBy_evaluate {s : State} (canonical : Canonical s.assemblies) (n : Nat)
    (blind : ∀ r t, f (evaluated t r) = f r) : SameBy f s (evaluate n s) := by
  cases record : recordAt s n with
  | none => unfold evaluate; rw [record]; exact sameBy_of_assemblies rfl
  | some r =>
    refine sameBy_put canonical record (r' := evaluated (typeAt s r.type) r) ?_ (blind r _)
    unfold evaluate
    rw [record]
    dsimp only
    split <;> rfl

theorem sameBy_foldl_abortForReset {s : State} (canonical : Canonical s.assemblies)
    (blind : ∀ r state, f { r with state := state } = f r) (heads : List Head) :
    SameBy f s (heads.foldl abortForReset s) := by
  induction heads generalizing s with
  | nil => exact sameBy_of_assemblies rfl
  | cons x rest ih =>
    refine SameBy.trans ?_ (ih (canonical_abortForReset x canonical))
    unfold abortForReset
    split
    next c _ => exact sameBy_setState canonical _ _ fun r => blind r _
    all_goals exact sameBy_of_assemblies rfl

theorem sameBy_lineReset {s : State} (canonical : Canonical s.assemblies)
    (blind : ∀ r state, f { r with state := state } = f r) : SameBy f s (lineReset s) := by
  rw [lineReset_eq]
  exact sameBy_foldl_abortForReset canonical blind _

theorem sameBy_markType {s : State} (t : Nat) (blind : ∀ r, f (markRecord t r) = f r) : SameBy f s (markType t s) := by
  refine ⟨fun n => ?_, fun p => ?_⟩
  · rw [recordAt_markType, Option.map_map]
    exact congrArg (fun g => (recordAt s n).map g) (funext blind)
  · rw [markType, List.countP_map]
    congr 1
    funext e
    exact congrArg p (blind e.2)

/-- Every change of a capture keeps what does not depend on a record's state, its entries and its mark. -/
theorem captureChange_sameBy {s t : State} (changed : CaptureChange s t) (canonical : Canonical s.assemblies)
    (blind : ∀ r state length radius marked recheck,
      f { r with state := state, length := length, radius := radius, marked := marked, recheck := recheck } = f r) :
    SameBy f s t := by
  have review : ∀ r t, f (evaluated t r) = f r := by
    intro r t
    rcases evaluated_cases t r with ⟨-, is⟩ | ⟨-, is⟩ | ⟨-, is⟩ <;> rw [is]
    · exact blind r _ r.length r.radius _ r.recheck
    · exact blind r r.state r.length r.radius _ _
    · exact blind r r.state r.length r.radius _ r.recheck
  cases changed with
  | captureAborted h c y =>
    exact sameBy_setState canonical c.assembly c.prior fun r => blind r _ r.length r.radius r.marked r.recheck
  | captureSettled h c c' r y ready armed same record =>
    refine sameBy_put canonical record rfl ?_
    unfold settledRecord withEntry
    cases c'.axis
    · exact blind r _ _ r.radius _ r.recheck
    · exact blind r _ r.length _ _ r.recheck
  | contactArmed h n r c ready idle record =>
    exact sameBy_put canonical record rfl (blind r _ r.length r.radius r.marked r.recheck)
  | recordSwept n running next => exact sameBy_evaluate canonical n review
  | recordReviewed n r record marked => exact sameBy_evaluate canonical n review

/-! ## The tag map (R5) -/

/-- What the tag map and the in-use counts look at in a record. -/
def label (r : Assembly) : Nat × Option Tag := (r.type, r.tag)

/-- The tag of a record as a key of the tag map. -/
def tagKey (s : State) (n : Nat) : Option Nat := (recordAt s n).bind fun r => r.tag.map (·.toNat)

theorem tagKey_sameBy {s t : State} (same : SameBy label s t) : tagKey t = tagKey s := by
  have read : ∀ u n, tagKey u n = ((recordAt u n).map label).bind fun x => x.2.map (·.toNat) := by
    intro u n
    rw [tagKey]
    cases recordAt u n <;> rfl
  funext n
  rw [read, read, same.1]

theorem tagsMatch_iff {s : State} (canonical : TablesCanonical s) : TagsMatch s ↔ Indexes s.tagMap (tagKey s) := by
  obtain ⟨records, tags, -⟩ := (tablesCanonical_iff s).1 canonical
  have keyed : ∀ n x, tagKey s n = some x ↔ ∃ r, recordAt s n = some r ∧ ∃ t, r.tag = some t ∧ t.toNat = x := by
    intro n x
    simp only [tagKey, Option.bind_eq_some_iff, Option.map_eq_some_iff]
  have left : (∀ e ∈ s.tagMap, ((recordAt s e.2).any fun r => r.tag.any fun t => t.toNat = e.1) = true)
      ↔ ∀ x n, tableGet s.tagMap x = some n → tagKey s n = some x := by
    simp only [keyed, Option.any_eq_true, decide_eq_true_eq]
    exact ⟨fun all x n entry => all (x, n) (mem_of_tableGet entry), fun all e mem => all e.1 e.2 (tableGet_of_mem tags mem)⟩
  have right : (∀ e ∈ s.assemblies, (e.2.tag.all fun t => tableGet s.tagMap t.toNat = some e.1) = true)
      ↔ ∀ x n, tagKey s n = some x → tableGet s.tagMap x = some n := by
    simp only [Option.all_eq_true, decide_eq_true_eq, keyed]
    rw [forall_mem_iff records (p := fun n r => ∀ t, r.tag = some t → tableGet s.tagMap t.toNat = some n)]
    constructor
    · rintro all x n ⟨r, record, t, tagged, rfl⟩
      exact all n r record t tagged
    · exact fun all n r record t tagged => all _ n ⟨r, record, t, tagged, rfl⟩
  unfold TagsMatch
  rw [left, right]
  exact ⟨fun ⟨a, b⟩ x n => ⟨a x n, b x n⟩, fun both => ⟨fun x n => (both x n).1, fun x n => (both x n).2⟩⟩

theorem tableGet_bindTo (n : Nat) (tag : Option Tag) (s : State) (x : Nat) :
    tableGet (bindTo n tag s).tagMap x = if tag.map (·.toNat) = some x then some n else tableGet s.tagMap x := by
  cases tag with
  | none => rfl
  | some t =>
    simp only [bindTo, tableGet_tableSet, Option.map_some, Option.some_inj]
    exact if_congr eq_comm rfl rfl

theorem tableGet_unbindFrom (tag : Option Tag) (s : State) (x : Nat) :
    tableGet (unbindFrom tag s).tagMap x = if tag.map (·.toNat) = some x then none else tableGet s.tagMap x := by
  cases tag with
  | none => rfl
  | some t =>
    simp only [unbindFrom, tableGet_tableErase, Option.map_some, Option.some_inj]
    exact if_congr eq_comm rfl rfl

theorem tableGet_dropRecord (old : Option Assembly) (s : State) (x : Nat) : tableGet (dropRecord old s).tagMap x
    = if (old.bind fun r => r.tag.map (·.toNat)) = some x then none else tableGet s.tagMap x := by
  cases old with
  | none => rfl
  | some r => rw [dropRecord_some]; exact tableGet_unbindFrom r.tag s x

/-- One record changed, and the tag map with its tag. -/
theorem indexes_record {s t : State} {n : Nat} {new : Option Assembly} (indexes : Indexes s.tagMap (tagKey s))
    (after : ∀ m, recordAt t m = if m = n then new else recordAt s m)
    (entries : ∀ x, tableGet t.tagMap x = if (new.bind fun r => r.tag.map (·.toNat)) = some x then some n
      else if ((recordAt s n).bind fun r => r.tag.map (·.toNat)) = some x then none else tableGet s.tagMap x)
    (free : ∀ r tag, new = some r → r.tag = some tag → ∀ m, tableGet s.tagMap tag.toNat = some m → m = n) :
    Indexes t.tagMap (tagKey t) := by
  refine indexes_edit indexes (n := n) (new := new.bind fun r => r.tag.map (·.toNat)) (fun m => ?_) entries ?_
  · rw [tagKey, after]
    split <;> rfl
  · intro x has m entry
    simp only [Option.bind_eq_some_iff, Option.map_eq_some_iff] at has
    obtain ⟨r, is, tag, tagged, rfl⟩ := has
    exact free r tag is tagged m entry

theorem free_of_unbound {s : State} {n : Nat} {tag : Tag} (unbound : boundElsewhere s n tag = false) (m : Nat)
    (entry : tableGet s.tagMap tag.toNat = some m) : m = n := by
  simpa [boundElsewhere, entry] using unbound

theorem recordChange_tags {s t : State} (changed : RecordChange s t) (canonical : TablesCanonical s)
    (indexes : Indexes s.tagMap (tagKey s)) : Indexes t.tagMap (tagKey t) := by
  have records := ((tablesCanonical_iff s).1 canonical).1
  have put : ∀ {n : Nat} {r r' : Assembly}, recordAt s n = some r → t.assemblies = tableSet s.assemblies n r' →
      label r' = label r → t.tagMap = s.tagMap → Indexes t.tagMap (tagKey t) :=
    fun record stored same tags => indexes_congr tags (tagKey_sameBy (sameBy_put records record stored same)) indexes
  cases changed with
  | recordUsed n r u record => exact put record rfl rfl rfl
  | recordWithdrawn n r u reason record => exact put record rfl rfl rfl
  | serviceEntered n r record => exact put record rfl rfl rfl
  | recordIssued p n r x record => exact put record rfl rfl rfl
  | recordReturned n r draw record =>
    refine put record rfl ?_ rfl
    cases returnOutcome (typeAt s r.type) r draw <;> rfl
  | recordRebuilt n r record => exact put record rfl rfl rfl
  | recordCreated n t tag low absent usable unbound =>
    refine indexes_record indexes (recordAt_created n t tag _ s) (fun x => ?_) ?_
    · rw [absent]
      exact tableGet_bindTo n tag _ x
    · rintro _ x ⟨⟩ tagged m entry
      rw [unbound x tagged] at entry
      cases entry
  | recordRestored n b r low unheld replaceable described usable unbound =>
    obtain ⟨-, tag, -, unmarked, -⟩ := describedRecord?_spec described
    have tag' : (restoredRecord (typeAt s b.type) r).tag = b.tag := (restoredRecord_fixes _ unmarked).2.1.trans tag
    refine indexes_record indexes (recordAt_restored n b _ s) (fun x => ?_) ?_
    · rw [enterPlace_frame, Option.bind_some, tag']
      refine (tableGet_bindTo n b.tag _ x).trans ?_
      rw [putAssembly_tagMap, tableGet_dropRecord]
    · rintro _ x ⟨⟩ tagged m entry
      exact free_of_unbound (unbound x (tag'.symm.trans tagged)) m entry
  | recordRetyped n k r record =>
    refine indexes_congr rfl ?_ indexes
    funext m
    rw [tagKey, recordAt_retyped]
    split
    next here =>
      rw [here, tagKey, record, Option.bind_some, (evaluated_fixes _ _).2.1]
      rfl
    next => rfl
  | tagBound n r tag record untagged unbound =>
    refine indexes_record (n := n) (new := some { r with tag := some tag }) indexes (fun m => ?_) (fun x => ?_) ?_
    · rw [recordAt_bindTo]; exact recordAt_putAssembly _ _ _ _
    · rw [tableGet_bindTo, record]
      simp only [Option.bind_some, untagged]
      rfl
    · rintro _ x ⟨⟩ ⟨⟩ m entry
      exact free_of_unbound unbound m entry
  | tagUnbound n r record =>
    refine indexes_record indexes (recordAt_unbindFrom_put n _ r.tag s) (fun x => ?_) ?_
    · rw [tableGet_unbindFrom, record]
      rfl
    · rintro _ x ⟨⟩ ⟨⟩
  | recordDeleted n r record =>
    refine indexes_record indexes (recordAt_deleted n r s) (fun x => ?_) (by simp)
    rw [record]
    exact tableGet_dropRecord (some r) s x

/-- A change that is not of one record keeps every label and the tag map. -/
theorem change_label {s t : State} (changed : Change s t) (canonical : Canonical s.assemblies) :
    RecordChange s t ∨ SameBy label s t ∧ t.tagMap = s.tagMap := by
  cases changed with
  | record changed => exact .inl changed
  | line changed => rw [lineChange_frame changed]; exact .inr ⟨sameBy_of_assemblies rfl, rfl⟩
  | head changed => rw [headChange_frame changed]; exact .inr ⟨sameBy_of_assemblies rfl, rfl⟩
  | capture changed =>
    refine .inr ⟨captureChange_sameBy changed canonical fun _ _ _ _ _ _ => rfl, ?_⟩
    rw [captureChange_frame changed]
  | type changed =>
    cases changed with
    | typeStored => exact .inr ⟨sameBy_of_assemblies rfl, rfl⟩
    | typeJudged t new =>
      refine .inr ⟨sameBy_markType (s := putType t new s) t fun r => ?_, rfl⟩
      unfold markRecord
      split <;> rfl
  | machine changed => rw [machineChange_frame changed]; exact .inr ⟨sameBy_of_assemblies rfl, rfl⟩
  | lineReset => exact .inr ⟨sameBy_lineReset canonical fun _ _ => rfl, by rw [lineReset_eq]⟩
  | countersCleared | sweepEnded | sweepMoved => exact .inr ⟨sameBy_of_assemblies rfl, rfl⟩

theorem change_tags {s t : State} (changed : Change s t) (canonical : TablesCanonical s) (tags : TagsMatch s) :
    TagsMatch t := by
  have indexes := (tagsMatch_iff canonical).1 tags
  refine (tagsMatch_iff (change_canonical changed canonical)).2 ?_
  rcases change_label changed ((tablesCanonical_iff s).1 canonical).1 with changed | ⟨same, entries⟩
  · exact recordChange_tags changed canonical indexes
  · exact indexes_congr entries (tagKey_sameBy same) indexes

/-! ## The in-use counts (R26, R27) -/

/-- `TypesCounted` over the readers of the state. -/
def InUse (s : State) : Prop :=
  (∀ k < 128, (typeAt s k).inUse = s.assemblies.countP fun e => e.2.type = k)
    ∧ ∀ n r, recordAt s n = some r → typeUsable s r.type = true

theorem typesCounted_iff {s : State} (canonical : Canonical s.assemblies) : TypesCounted s ↔ InUse s := by
  unfold TypesCounted InUse
  rw [forall_mem_iff canonical (p := fun _ r => typeUsable s r.type = true)]
  refine and_congr_left fun _ => ⟨fun all k low => ?_, fun all i => ?_⟩
  · rw [← all ⟨k, low⟩]; simp [typeAt, low]
  · rw [← all i i.isLt]; simp [typeAt]

theorem typeUsable_iff (s : State) (k : Nat) : typeUsable s k = true ↔ k < 128 ∧ (typeAt s k).defined = true := by
  simp [typeUsable]

/-- One record changed, and the in-use counts with its type. -/
theorem inUse_record {s t : State} {n : Nat} {new : Option Assembly} (canonical : Canonical s.assemblies) (counted : InUse s)
    (stored : t.assemblies = edited s.assemblies n new)
    (counts : ∀ k < 128, (typeAt t k).inUse + ((recordAt s n).any fun r => r.type = k).toNat
      = (typeAt s k).inUse + (new.any fun r => r.type = k).toNat)
    (defined : ∀ k, (typeAt t k).defined = (typeAt s k).defined)
    (usable : ∀ r, new = some r → typeUsable s r.type = true) : InUse t := by
  obtain ⟨counts', usable'⟩ := counted
  refine ⟨fun k low => ?_, fun m r record => ?_⟩
  · have table := countP_edited canonical.1 (fun r => decide (r.type = k)) n new
    rw [← stored, show tableGet s.assemblies n = recordAt s n from rfl] at table
    have types := counts k low
    rw [counts' k low] at types
    omega
  · rw [typeUsable_iff, defined, ← typeUsable_iff]
    rw [recordAt, stored, tableGet_edited] at record
    split at record
    next => exact usable r record
    next => exact usable' m r record

theorem inUse_sameBy {s t : State} (counted : InUse s) (same : SameBy label s t)
    (counts : ∀ k, (typeAt t k).inUse = (typeAt s k).inUse)
    (defined : ∀ k < 128, (typeAt s k).defined = true → (typeAt t k).defined = true ∨ (typeAt s k).inUse = 0) : InUse t := by
  obtain ⟨counts', usable⟩ := counted
  have countSame : ∀ k, t.assemblies.countP (fun e => e.2.type = k) = s.assemblies.countP fun e => e.2.type = k :=
    fun k => same.2 fun x => x.1 = k
  refine ⟨fun k low => by rw [counts, countSame, counts' k low], fun n r record => ?_⟩
  have labels := same.1 n
  rw [record] at labels
  obtain ⟨r₀, record₀, is⟩ := Option.map_eq_some_iff.1 labels.symm
  have type : r₀.type = r.type := congrArg Prod.fst is
  have usable₀ := usable n r₀ record₀
  rw [type, typeUsable_iff] at usable₀
  refine (typeUsable_iff _ _).2 ⟨usable₀.1, (defined _ usable₀.1 usable₀.2).resolve_right fun zero => ?_⟩
  rw [counts' _ usable₀.1, List.countP_eq_zero] at zero
  exact zero (n, r₀) (mem_of_tableGet record₀) (by simp [type])

theorem typeAt_countIn (k m : Nat) (s : State) : (typeAt (countIn k s) m).defined = (typeAt s m).defined
    ∧ (typeAt (countIn k s) m).inUse = (typeAt s m).inUse + (if m = k ∧ k < 128 then 1 else 0) := by
  rw [countIn, typeAt_putType]
  split
  next here => simp [here.1]
  next => simp

theorem typeAt_countOut (k m : Nat) (s : State) : (typeAt (countOut k s) m).defined = (typeAt s m).defined
    ∧ (typeAt (countOut k s) m).inUse = (typeAt s m).inUse - (if m = k ∧ k < 128 then 1 else 0) := by
  rw [countOut, typeAt_putType]
  split
  next here => simp [here.1]
  next => simp

/-- A counted record has a count to give up. -/
theorem inUse_pos {s : State} {n : Nat} {r : Assembly} (counted : InUse s) (record : recordAt s n = some r) :
    r.type < 128 ∧ 0 < (typeAt s r.type).inUse := by
  obtain ⟨counts, usable⟩ := counted
  have low := ((typeUsable_iff _ _).1 (usable n r record)).1
  refine ⟨low, ?_⟩
  rw [counts _ low, List.countP_pos_iff]
  exact ⟨(n, r), mem_of_tableGet record, by simp⟩

theorem typeAt_dropRecord (old : Option Assembly) (s : State) (m : Nat) :
    (typeAt (dropRecord old s) m).defined = (typeAt s m).defined
      ∧ (typeAt (dropRecord old s) m).inUse
          = (typeAt s m).inUse - (if (old.any fun r => m = r.type ∧ r.type < 128) = true then 1 else 0) := by
  cases old with
  | none => simp [dropRecord]
  | some r =>
    have counted := typeAt_countOut r.type m (unbindFrom r.tag s)
    rw [typeAt_unbindFrom] at counted
    rw [dropRecord_some]
    simp only [Option.any_some, decide_eq_true_eq]
    exact counted

theorem recordChange_inUse {s t : State} (changed : RecordChange s t) (canonical : Canonical s.assemblies)
    (counted : InUse s) : InUse t := by
  have put : ∀ {n : Nat} {r r' : Assembly}, recordAt s n = some r → t.assemblies = tableSet s.assemblies n r' →
      label r' = label r → typeAt t = typeAt s → InUse t := by
    intro n r r' record stored same types
    exact inUse_sameBy counted (sameBy_put canonical record stored same) (fun k => by rw [types])
      (fun k _ is => .inl (by rw [types]; exact is))
  have labelled : ∀ {n : Nat} {r r' : Assembly}, recordAt s n = some r → t.assemblies = tableSet s.assemblies n r' →
      r'.type = r.type → typeAt t = typeAt s → InUse t := by
    intro n r r' record stored same types
    refine inUse_record canonical counted (new := some r') stored (fun k _ => ?_) (fun k => by rw [types]) ?_
    · rw [types, record, Option.any_some, Option.any_some, same]
    · rintro _ ⟨⟩
      rw [same]
      exact counted.2 n r record
  cases changed with
  | recordUsed n r u record => exact put record rfl rfl rfl
  | recordWithdrawn n r u reason record => exact put record rfl rfl rfl
  | serviceEntered n r record => exact put record rfl rfl rfl
  | recordIssued p n r x record => exact put record rfl rfl rfl
  | recordReturned n r draw record =>
    refine put record rfl ?_ rfl
    cases returnOutcome (typeAt s r.type) r draw <;> rfl
  | recordRebuilt n r record => exact put record rfl rfl rfl
  | tagBound n r tag record => exact labelled record rfl rfl rfl
  | tagUnbound n r record =>
    exact labelled (r' := { r with tag := none }) record (by rw [unbindFrom_frame]; rfl) rfl (typeAt_unbindFrom _ _)
  | recordCreated n k tag low absent usable =>
    have types : typeAt (bindTo n tag (putAssembly n (createdRecord k tag) s)) = typeAt s := by
      rw [typeAt_bindTo, typeAt_putAssembly]
    have low := ((typeUsable_iff _ _).1 usable).1
    refine inUse_record canonical counted (n := n) (new := some (createdRecord k tag)) ?_ (fun m _ => ?_) (fun m => ?_) ?_
    · rw [bindTo_frame]; rfl
    · rw [(typeAt_countIn k m _).2, types, absent]
      by_cases here : m = k
      · simp [here, low, createdRecord]
      · simp [here, Ne.symm here, createdRecord]
    · rw [(typeAt_countIn k m _).1, types]
    · rintro _ ⟨⟩
      exact usable
  | recordRestored n b r low unheld replaceable described usable =>
    obtain ⟨type, -, -, unmarked, -⟩ := describedRecord?_spec described
    have type' : (restoredRecord (typeAt s b.type) r).type = b.type := (restoredRecord_fixes _ unmarked).1.trans type
    have low := ((typeUsable_iff _ _).1 usable).1
    have types : ∀ u, typeAt (enterPlace n b.location u) = typeAt u := by intro u; rw [enterPlace_frame]; rfl
    refine inUse_record canonical counted (n := n) (new := some (restoredRecord (typeAt s b.type) r)) ?_ (fun m _ => ?_)
      (fun m => ?_) ?_
    · rw [enterPlace_frame, bindTo_frame, dropRecord_frame]; rfl
    · rw [types, (typeAt_countIn b.type m _).2, typeAt_bindTo, typeAt_putAssembly, (typeAt_dropRecord _ s m).2]
      have new : (if m = b.type ∧ b.type < 128 then 1 else 0) = (decide (b.type = m)).toNat := by
        by_cases here : m = b.type
        · simp [here, low]
        · simp [here, Ne.symm here]
      rw [Option.any_some, type', new]
      cases old : recordAt s n with
      | none => simp
      | some r₀ =>
        obtain ⟨low₀, pos⟩ := inUse_pos counted old
        by_cases here : m = r₀.type
        · subst here
          simp only [Option.any_some, low₀, decide_true, Bool.toNat_true, and_self, if_true]
          omega
        · simp [here, Ne.symm here]
    · rw [types, (typeAt_countIn b.type m _).1, typeAt_bindTo, typeAt_putAssembly, (typeAt_dropRecord _ s m).1]
    · rintro _ ⟨⟩
      rw [type']
      exact usable
  | recordRetyped n k r record crib usable =>
    have type' : (evaluated (typeAt s k) { r with type := k }).type = k := (evaluated_fixes _ _).1
    have low := ((typeUsable_iff _ _).1 usable).1
    obtain ⟨low₀, pos⟩ := inUse_pos counted record
    refine inUse_record canonical counted (n := n) (new := some (evaluated (typeAt s k) { r with type := k })) rfl
      (fun m _ => ?_) (fun m => ?_) ?_
    · rw [typeAt_putAssembly, (typeAt_countIn k m _).2, (typeAt_countOut r.type m s).2, Option.any_some, type', record,
        Option.any_some]
      by_cases old : m = r.type
      · subst old
        by_cases new : r.type = k
        · subst new
          simp only [low, decide_true, and_self, if_true]
          omega
        · simp only [low₀, new, Ne.symm new, decide_true, decide_false, Bool.toNat_true, Bool.toNat_false, and_self,
            false_and, if_true, if_false]
          omega
      · by_cases new : m = k
        · simp [new, low, new ▸ old, Ne.symm (new ▸ old)]
        · simp [new, old, Ne.symm new, Ne.symm old]
    · rw [typeAt_putAssembly, (typeAt_countIn k m _).1, (typeAt_countOut r.type m s).1]
    · rintro _ ⟨⟩
      rw [type']
      exact usable
  | recordDeleted n r record =>
    obtain ⟨low₀, pos⟩ := inUse_pos counted record
    have types : ∀ u table, typeAt { u with assemblies := table } = typeAt u := fun _ _ => rfl
    refine inUse_record canonical counted (n := n) (new := none) ?_ (fun m _ => ?_) (fun m => ?_) (by simp)
    · rw [dropRecord_frame]; rfl
    · rw [types, (typeAt_dropRecord (some r) s m).2, record]
      by_cases here : m = r.type
      · subst here
        simp only [Option.any_some, low₀, decide_true, Bool.toNat_true, and_self, if_true, Option.any_none,
          Bool.toNat_false]
        omega
      · simp [here, Ne.symm here]
    · exact (typeAt_dropRecord (some r) s m).1

theorem change_types {s t : State} (changed : Change s t) (canonical : TablesCanonical s) (counted : TypesCounted s) :
    TypesCounted t := by
  have records := ((tablesCanonical_iff s).1 canonical).1
  have inUse := (typesCounted_iff records).1 counted
  refine (typesCounted_iff ((tablesCanonical_iff t).1 (change_canonical changed canonical)).1).2 ?_
  rcases change_label changed records with one | ⟨same, -⟩
  · exact recordChange_inUse one records inUse
  · have still : typeAt t = typeAt s → InUse t := fun types =>
      inUse_sameBy inUse same (fun k => by rw [types]) fun k _ is => .inl (by rw [types]; exact is)
    have stored : ∀ k new, typeAt t = typeAt (putType k new s) → new.inUse = (typeAt s k).inUse →
        (new.defined = true ∨ (typeAt s k).inUse = 0) → InUse t := by
      intro k new types count kept
      refine inUse_sameBy inUse same (fun m => ?_) fun m _ is => ?_
      · rw [types, typeAt_putType]
        split
        next here => rw [here.1]; exact count
        next => rfl
      · rw [types, typeAt_putType]
        split
        next here => rw [here.1]; exact kept
        next => exact .inl is
    cases changed with
    | record changed => exact recordChange_inUse changed records inUse
    | line changed => exact still (by rw [lineChange_frame changed]; rfl)
    | head changed => exact still (by rw [headChange_frame changed]; rfl)
    | capture changed => exact still (by rw [captureChange_frame changed]; rfl)
    | type changed =>
      cases changed with
      | typeStored k new low legal count kept => exact stored k new rfl count kept
      | typeJudged k new low idle legal count kept => exact stored k new rfl count kept
    | machine changed => exact still (by rw [machineChange_frame changed]; rfl)
    | lineReset => exact still (by rw [lineReset_eq]; rfl)
    | countersCleared | sweepEnded | sweepMoved => exact still rfl

/-! ## The mark count and the cursor (R33 to R38) -/

/-- `MarksCounted` over the records of a canonical state. -/
def Marks (s : State) : Prop :=
  s.sweep.marks = s.assemblies.countP (fun e => e.2.marked)
    ∧ (∀ n r, recordAt s n = some r → r.marked = true → s.sweep.cursor ≤ n)
    ∧ (s.sweep.state = .idle → s.sweep.marks = 0) ∧ s.sweep.cursor ≤ 1024

theorem marksCounted_iff {s : State} (canonical : Canonical s.assemblies) : MarksCounted s ↔ Marks s := by
  unfold MarksCounted Marks
  rw [forall_mem_iff canonical (p := fun n r => r.marked = true → s.sweep.cursor ≤ n)]

theorem marks_sameBy {s t : State} (marks : Marks s) (same : SameBy Assembly.marked s t) (sweep : t.sweep = s.sweep) :
    Marks t := by
  obtain ⟨count, above, idle, cursor⟩ := marks
  unfold Marks
  rw [sweep]
  refine ⟨count.trans (same.2 id).symm, fun n r record marked => ?_, idle, cursor⟩
  have marks := same.1 n
  rw [record] at marks
  obtain ⟨r₀, record₀, is⟩ := Option.map_eq_some_iff.1 marks.symm
  exact above n r₀ record₀ (is.trans marked)

/-- One record changed: it bears a mark only when it bore one, and the sweep's count goes with it. -/
theorem marks_record {s t : State} {n : Nat} {new : Option Assembly} (canonical : Canonical s.assemblies) (marks : Marks s)
    (stored : t.assemblies = edited s.assemblies n new)
    (count : t.sweep.marks = s.sweep.marks + (new.any (·.marked)).toNat - ((recordAt s n).any (·.marked)).toNat)
    (kept : ∀ r, new = some r → r.marked = true → (recordAt s n).any (·.marked) = true)
    (cursor : t.sweep.cursor = s.sweep.cursor) (state : t.sweep.state = s.sweep.state) : Marks t := by
  obtain ⟨counted, above, idle, low⟩ := marks
  have table := countP_edited canonical.1 (·.marked) n new
  rw [← stored, show tableGet s.assemblies n = recordAt s n from rfl] at table
  have fewer : (new.any (·.marked)).toNat ≤ ((recordAt s n).any (·.marked)).toNat := by
    cases new with
    | none => simp
    | some r =>
      cases marked : r.marked with
      | false => simp [marked]
      | true => simp [marked, kept r rfl marked]
  refine ⟨by omega, fun m r record marked => ?_, fun is => ?_, cursor.le.trans low⟩
  · rw [cursor]
    rw [recordAt, stored, tableGet_edited] at record
    split at record
    next here =>
      subst here
      obtain ⟨r₀, record₀, marked₀⟩ := (Option.any_eq_true _ _).1 (kept r record marked)
      exact above m r₀ record₀ marked₀
    next => exact above m r record marked
  · have zero := idle (state.symm.trans is)
    omega

theorem lessMark_fixes (marked : Bool) (w : Sweep) : (lessMark marked w).marks = w.marks - marked.toNat
    ∧ (lessMark marked w).cursor = w.cursor ∧ (lessMark marked w).state = w.state := by
  cases marked <;> exact ⟨rfl, rfl, rfl⟩

/-- A slot whose new content bears no mark, its old mark given up. -/
theorem marks_dropped {s t : State} {n : Nat} {new : Option Assembly} (canonical : Canonical s.assemblies) (marks : Marks s)
    (stored : t.assemblies = edited s.assemblies n new) (unmarked : ∀ r, new = some r → r.marked = false)
    (sweep : t.sweep = lessMark ((recordAt s n).any (·.marked)) s.sweep) : Marks t := by
  obtain ⟨count, cursor, state⟩ := lessMark_fixes ((recordAt s n).any (·.marked)) s.sweep
  have none : new.any (·.marked) = false := by
    cases new with
    | none => rfl
    | some r => exact unmarked r rfl
  refine marks_record canonical marks stored ?_ ?_ (by rw [sweep]; exact cursor) (by rw [sweep]; exact state)
  · rw [sweep, count, none]; rfl
  · rintro r is marked
    rw [unmarked r is] at marked
    cases marked

theorem sweep_dropRecord (old : Option Assembly) (s : State) :
    (dropRecord old s).sweep = lessMark (old.any (·.marked)) s.sweep := by
  cases old with
  | none => rfl
  | some r => rw [dropRecord_some]; rfl

theorem recordChange_marks {s t : State} (changed : RecordChange s t) (canonical : Canonical s.assemblies)
    (marks : Marks s) : Marks t := by
  have put : ∀ {n : Nat} {r r' : Assembly}, recordAt s n = some r → t.assemblies = tableSet s.assemblies n r' →
      r'.marked = r.marked → t.sweep = s.sweep → Marks t :=
    fun record stored same sweep => marks_sameBy marks (sameBy_put canonical record stored same) sweep
  cases changed with
  | recordUsed n r u record => exact put record rfl rfl rfl
  | recordWithdrawn n r u reason record => exact put record rfl rfl rfl
  | serviceEntered n r record => exact put record rfl rfl rfl
  | recordIssued p n r x record => exact put record rfl rfl rfl
  | recordReturned n r draw record =>
    refine put record rfl ?_ rfl
    cases returnOutcome (typeAt s r.type) r draw <;> rfl
  | recordRebuilt n r record => exact put record rfl rfl rfl
  | tagBound n r tag record => exact put record rfl rfl rfl
  | tagUnbound n r record =>
    exact put (r' := { r with tag := none }) record (by rw [unbindFrom_frame]; rfl) rfl (by rw [unbindFrom_frame]; rfl)
  | recordRetyped n k r record crib usable unmarked =>
    exact put record rfl ((evaluated_marked _ _).trans unmarked.symm) rfl
  | recordCreated n k tag low absent =>
    refine marks_dropped canonical marks (n := n) (new := some (createdRecord k tag)) ?_ ?_ ?_
    · rw [bindTo_frame]; rfl
    · rintro _ ⟨⟩; rfl
    · rw [bindTo_frame, absent]; rfl
  | recordRestored n b r low unheld replaceable described =>
    obtain ⟨-, -, -, unmarked, -⟩ := describedRecord?_spec described
    refine marks_dropped canonical marks (n := n) (new := some (restoredRecord (typeAt s b.type) r)) ?_ ?_ ?_
    · rw [enterPlace_frame, bindTo_frame, dropRecord_frame]; rfl
    · rintro _ ⟨⟩
      exact (restoredRecord_fixes _ unmarked).2.2.2.2
    · rw [enterPlace_frame, bindTo_frame]
      exact sweep_dropRecord _ s
  | recordDeleted n r record =>
    refine marks_dropped canonical marks (n := n) (new := none) ?_ (by simp) ?_
    · rw [dropRecord_frame]; rfl
    · rw [record]
      exact sweep_dropRecord (some r) s

/-- The lowest marked record at or above the cursor, and none below it (R34). -/
theorem nextMarked_some {s : State} {n : Nat} (canonical : Canonical s.assemblies) (next : nextMarked s = some n) :
    (∃ r, recordAt s n = some r ∧ r.marked = true) ∧ s.sweep.cursor ≤ n
      ∧ ∀ m r, recordAt s m = some r → r.marked = true → s.sweep.cursor ≤ m → n ≤ m := by
  obtain ⟨e, found, rfl⟩ := Option.map_eq_some_iff.1 next
  obtain ⟨is, before, after, table, passed⟩ := List.find?_eq_some_iff_append.1 found
  simp only [Bool.and_eq_true, decide_eq_true_eq] at is
  have mem : e ∈ s.assemblies := by rw [table]; simp
  refine ⟨⟨e.2, recordAt_of_mem canonical mem, is.2⟩, is.1, fun m r record marked above => ?_⟩
  have rising := canonical.1
  have at_ : (m, r) ∈ s.assemblies := mem_of_tableGet record
  rw [table] at rising at_
  rcases List.mem_append.1 at_ with early | late
  · have := passed _ early
    simp [marked, above] at this
  · rcases List.mem_cons.1 late with same | late
    · rw [← same]
    · have later := (List.pairwise_cons.1 (List.pairwise_append.1 rising).2.1).1 _ late
      exact later.le

theorem nextMarked_none {s : State} (done : nextMarked s = none) {n : Nat} {r : Assembly} (record : recordAt s n = some r)
    (marked : r.marked = true) : n < s.sweep.cursor := by
  have none := List.find?_eq_none.1 (Option.map_eq_none_iff.1 done) (n, r) (mem_of_tableGet record)
  simpa [marked] using none

theorem assemblies_evaluate {s : State} {n : Nat} {r : Assembly} (record : recordAt s n = some r) :
    (evaluate n s).assemblies = edited s.assemblies n (some (evaluated (typeAt s r.type) r)) := by
  unfold evaluate
  rw [record]
  dsimp only
  split <;> rfl

/-- A review takes its record's mark with it. -/
theorem marks_reviewed {s : State} {n : Nat} {r : Assembly} (canonical : Canonical s.assemblies) (marks : Marks s)
    (record : recordAt s n = some r) (marked : r.marked = true) : Marks (clearedOtherwise (evaluate n s)) := by
  refine marks_dropped canonical marks (n := n) (new := some (evaluated (typeAt s r.type) r)) ?_ ?_ ?_
  · exact assemblies_evaluate record
  · rintro _ ⟨⟩
    exact evaluated_marked _ _
  · rw [evaluate_frame, record, Option.any_some, marked]
    rfl

theorem captureChange_marks {s t : State} (changed : CaptureChange s t) (canonical : Canonical s.assemblies)
    (marks : Marks s) : Marks t := by
  cases changed with
  | captureAborted h c y =>
    refine marks_sameBy marks (sameBy_setState canonical c.assembly c.prior fun _ => rfl) ?_
    rw [setState_frame]; rfl
  | captureSettled h c c' r y ready armed same record =>
    refine marks_dropped canonical marks (n := c.assembly) (new := some (settledRecord h c' (typeAt s r.type) r)) rfl ?_ ?_
    · rintro _ ⟨⟩; rfl
    · rw [record]; rfl
  | contactArmed h n r c ready idle record =>
    exact marks_sameBy marks (sameBy_put canonical record rfl rfl) rfl
  | recordSwept n running next =>
    obtain ⟨⟨r, record, marked⟩, above, lowest⟩ := nextMarked_some canonical next
    obtain ⟨count, -, -, -⟩ := marks_reviewed canonical marks record marked
    have small := lt_of_recordAt canonical record
    refine ⟨?_, fun m r' record' marked' => ?_, fun idle => ?_, ?_⟩
    · rw [evaluate_frame] at count
      unfold stepOn
      rw [evaluate_frame]
      exact count
    · have other : m ≠ n := by
        rintro rfl
        rw [show recordAt (stepOn m s) m = recordAt (evaluate m s) m from rfl, recordAt_evaluate_same record] at record'
        cases record'
        rw [evaluated_marked] at marked'
        cases marked'
      rw [show recordAt (stepOn n s) m = recordAt (evaluate n s) m from rfl, recordAt_evaluate_other s other] at record'
      have := lowest m r' record' marked' (marks.2.1 m r' record' marked')
      exact Nat.lt_of_le_of_ne this (Ne.symm other)
    · unfold stepOn at idle
      rw [evaluate_frame] at idle
      rw [running] at idle
      cases idle
    · exact small
  | recordReviewed n r record marked => exact marks_reviewed canonical marks record marked

theorem countP_markRecord (k : Nat) (t : Table Assembly) :
    (t.map fun e => (e.1, markRecord k e.2)).countP (fun e => e.2.marked)
      = t.countP (fun e => e.2.marked) + newlyMarked k t := by
  induction t with
  | nil => rfl
  | cons e rest ih =>
    have one : (markRecord k e.2).marked.toNat = e.2.marked.toNat + (toBeMarked k e.2 && !e.2.marked).toNat := by
      unfold markRecord
      cases toBeMarked k e.2 <;> cases marked : e.2.marked <;> simp [marked]
    unfold newlyMarked at ih ⊢
    rw [List.map_cons, countP_cons_record, countP_cons_record, ih,
      countP_cons_record (fun r => toBeMarked k r && !r.marked)]
    dsimp only
    omega

theorem typeChange_marks {s t : State} (changed : TypeChange s t) (marks : Marks s) : Marks t := by
  cases changed with
  | typeStored => exact marks
  | typeJudged k new low idle =>
    obtain ⟨count, -, still, cursor⟩ := marks
    have zero := still idle
    have total := countP_markRecord k s.assemblies
    rw [← count, zero, Nat.zero_add] at total
    unfold Marks markType startSweep
    simp only [putType_sweep, putType_assemblies, zero, Nat.zero_add]
    split
    next some => exact ⟨total.symm, fun n r _ _ => Nat.zero_le n, (by rintro ⟨⟩), Nat.zero_le _⟩
    next none =>
      have zero' : newlyMarked k s.assemblies = 0 := by omega
      rw [zero'] at total
      refine ⟨zero'.trans total.symm, fun n r record marked => ?_, fun _ => zero', cursor⟩
      rw [List.countP_eq_zero] at total
      exact absurd marked (total (n, r) (mem_of_tableGet record))

theorem change_marks {s t : State} (changed : Change s t) (canonical : TablesCanonical s) (counted : MarksCounted s) :
    MarksCounted t := by
  have records := ((tablesCanonical_iff s).1 canonical).1
  have marks := (marksCounted_iff records).1 counted
  refine (marksCounted_iff ((tablesCanonical_iff t).1 (change_canonical changed canonical)).1).2 ?_
  cases changed with
  | line changed => rw [lineChange_frame changed]; exact marks
  | head changed => rw [headChange_frame changed]; exact marks
  | capture changed => exact captureChange_marks changed records marks
  | record changed => exact recordChange_marks changed records marks
  | type changed => exact typeChange_marks changed marks
  | machine changed => rw [machineChange_frame changed]; exact marks
  | countersCleared => exact marks
  | sweepEnded running done =>
    obtain ⟨count, above, -, cursor⟩ := marks
    have zero : s.assemblies.countP (fun e => e.2.marked) = 0 := by
      rw [List.countP_eq_zero]
      intro e mem marked
      have record := recordAt_of_mem records mem
      exact absurd (above _ _ record marked) (Nat.not_le.2 (nextMarked_none done record marked))
    exact ⟨count, above, fun _ => count.trans zero, cursor⟩
  | sweepMoved target busy stays =>
    obtain ⟨count, above, -, cursor⟩ := marks
    exact ⟨count, above, fun is => absurd is stays, cursor⟩
  | lineReset =>
    have same : SameBy Assembly.marked s (lineReset s) := sameBy_lineReset records fun _ _ => rfl
    have sweep : (lineReset s).sweep = restartedSweep s.sweep := by rw [lineReset_eq]
    obtain ⟨count, -, -, -⟩ := marks
    unfold Marks
    rw [sweep]
    refine ⟨count.trans (same.2 id).symm, fun n r _ _ => Nat.zero_le n, fun idle => ?_, Nat.zero_le _⟩
    unfold restartedSweep at idle ⊢
    dsimp only at idle ⊢
    by_contra some
    rw [if_pos (Nat.pos_of_ne_zero some)] at idle
    cases idle

/-- Settles O46: each of the three agreements is kept by every change of a canonical state. -/
theorem tagsTypesAndMarksStayCounted : Obligations.TagsTypesAndMarksStayCounted := by
  intro s t canonical result
  have keeps : ∀ {P : State → Prop}, (∀ {s t}, Quiet s t → P s → P t) →
      (∀ {s t}, Change s t → TablesCanonical s → P s → P t) → P State.reset →
      (∀ {s} w new, WindowLegal new → P s → P { s with holds := s.holds.setIfInBounds w new }) → P s → P t := by
    intro P quiet change start window holds
    have both : TablesCanonical t ∧ P t :=
      step_keeps (P := fun u => TablesCanonical u ∧ P u)
        (fun same h => ⟨by rw [same]; exact h.1, quiet same h.2⟩)
        (fun changed h => ⟨change_canonical changed h.1, change changed h.1 h.2⟩) ⟨reset_canonical, start⟩
        (fun w new legal h => ⟨h.1, window w new legal h.2⟩) result ⟨canonical, holds⟩
    exact both.2
  refine ⟨keeps (fun q h => by rw [q]; exact h) change_tags ?_ fun _ _ _ h => h,
    keeps (fun q h => by rw [q]; exact h) change_types ?_ fun _ _ _ h => h,
    keeps (fun q h => by rw [q]; exact h) change_marks ?_ fun _ _ _ h => h⟩
  · simp [TagsMatch, State.reset]
  · simp [TypesCounted, State.reset, TypeRecord.reset]
  · simp [MarksCounted, State.reset, Sweep.reset]

end Sys2Proof.Counted

/-! PROOFS. Every change keeps the queues within their places, the counters within their widths, and the stored types,
windows and machine definitions within their ranges. -/

namespace Sys2Proof.Ranges

open Sys2Proof Sys2Proof.Machine Sys2Proof.Transitions Sys2Proof.Heads Sys2Proof.Records

/-! ## Queues (R138, R142, R166, R174, R186) -/

/-- The queues but the answer FIFO, the discarded count and the audit value within their limits. -/
def QueuesFit (s : State) : Prop :=
  s.cribTransit.length ≤ 8 ∧ s.hallTransit.length ≤ 8 ∧ s.notices.length ≤ 24 ∧ s.waitList.length ≤ 32
    ∧ s.handoff.length ≤ 4 ∧ s.discardedNotices ≤ 255 ∧ 1 ≤ s.audit.toNat

theorem one_le_toNat_iff (v : BitVec 15) : 1 ≤ v.toNat ↔ v ≠ 0 := by
  rw [Nat.one_le_iff_ne_zero, ne_eq, ne_eq, BitVec.toNat_eq]
  rfl

theorem lineChange_queues {s t : State} (changed : LineChange s t) (fit : QueuesFit s) : QueuesFit t := by
  obtain ⟨crib, hall, notices, waits, handoff, discarded, audit⟩ := fit
  have all : QueuesFit s := ⟨crib, hall, notices, waits, handoff, discarded, audit⟩
  have shorter : ∀ {α : Type} (xs : List α) {k : Nat}, xs.length ≤ k → xs.tail.length ≤ k := by
    intro α xs k le
    rw [List.length_tail]
    omega
  cases changed with
  | receptionEnded p => cases p <;> exact all
  | lineCounted p c => cases p <;> exact all
  | transitDropped p => cases p <;> exact all
  | transitEntered p f room =>
    cases p with
    | crib =>
      have longer : (s.hallTransit ++ [f]).length ≤ 8 := by simp only [List.length_append]; exact room
      exact ⟨crib, longer, notices, waits, handoff, discarded, audit⟩
    | hall =>
      have longer : (s.cribTransit ++ [f]).length ≤ 8 := by simp only [List.length_append]; exact room
      exact ⟨longer, hall, notices, waits, handoff, discarded, audit⟩
  | cribSent src f _ =>
    cases src with
    | transit => exact ⟨shorter _ crib, hall, notices, waits, handoff, discarded, audit⟩
    | answer => exact all
    | notice => exact ⟨crib, hall, shorter _ notices, waits, handoff, discarded, audit⟩
  | hallTransitSent f _ => exact ⟨crib, shorter _ hall, notices, waits, handoff, discarded, audit⟩
  | handoffSent f _ => exact ⟨crib, hall, notices, waits, shorter _ handoff, discarded, audit⟩
  | noticeEntered body room =>
    exact ⟨crib, hall, by simp only [List.length_append]; exact room, waits, handoff, Nat.zero_le _, audit⟩
  | noticeDiscarded => exact ⟨crib, hall, notices, waits, handoff, Nat.min_le_right _ _, audit⟩
  | auditSet v nonzero =>
    exact ⟨crib, hall, notices, waits, handoff, discarded, (one_le_toNat_iff v).2 (nonzero ((one_le_toNat_iff _).1 audit))⟩
  | framesVoided n => exact ⟨crib, hall, notices, waits, by simpa using handoff, discarded, audit⟩
  | guardCounted | tagCounted | requestCounted | mismatchCounted | handoffCounted | errorMarked | modeSet => exact all

theorem queuesFit_putMachine {s : State} (m : Nat) (x : MachineDef) (fit : QueuesFit s) : QueuesFit (putMachine m x s) := by
  rw [putMachine_frame]
  exact fit

theorem queuesFit_remarkWaiting {s : State} (m : Nat) (mark : Bool) (fit : QueuesFit s) :
    QueuesFit (remarkWaiting m mark s) := by
  obtain ⟨crib, hall, notices, waits, handoff, discarded, audit⟩ := fit
  exact ⟨crib, hall, notices, by simpa [remarkWaiting] using waits, handoff, discarded, audit⟩

theorem queuesFit_entryMoved {s : State} {e : WaitEntry} (next : nextTake s = some e) (fit : QueuesFit s) :
    QueuesFit (entryMoved e s) := by
  obtain ⟨crib, hall, notices, waits, -, discarded, audit⟩ := fit
  obtain ⟨room, -⟩ := nextTake_some next
  refine ⟨crib, hall, notices, (List.length_erase_le).trans waits, ?_, discarded, audit⟩
  rw [entryMoved]
  simp only [List.length_append]
  exact room

theorem machineChange_queues {s t : State} (changed : MachineChange s t) (fit : QueuesFit s) : QueuesFit t := by
  cases changed with
  | profileCancelled m x =>
    refine queuesFit_putMachine _ _ ?_
    split
    next => exact queuesFit_remarkWaiting _ _ fit
    next => exact fit
  | profileRequested => exact queuesFit_putMachine _ _ (queuesFit_remarkWaiting _ _ fit)
  | waiterJoined p absent room =>
    obtain ⟨crib, hall, notices, -, handoff, discarded, audit⟩ := fit
    exact ⟨crib, hall, notices, by simp only [List.length_append]; exact room, handoff, discarded, audit⟩
  | entryTaken e next => exact queuesFit_entryMoved next fit
  | markTaken e x w next => exact queuesFit_putMachine _ _ (queuesFit_entryMoved next fit)
  | machineStored | pausedSet | profileStored | profileSwitched => exact queuesFit_putMachine _ _ fit

theorem change_queues {s t : State} (changed : Change s t) (fit : QueuesFit s) : QueuesFit t := by
  cases changed with
  | line changed => exact lineChange_queues changed fit
  | head changed => rw [headChange_frame changed]; exact fit
  | capture changed => rw [captureChange_frame changed]; exact fit
  | record changed => rw [recordChange_frame changed]; exact fit
  | type changed => rw [typeChange_frame changed]; exact fit
  | machine changed => exact machineChange_queues changed fit
  | lineReset =>
    obtain ⟨-, -, -, -, -, -, audit⟩ := fit
    rw [lineReset_eq]
    exact ⟨Nat.zero_le _, Nat.zero_le _, Nat.zero_le _, Nat.zero_le _, Nat.zero_le _, Nat.zero_le _, audit⟩
  | countersCleared | sweepEnded | sweepMoved => exact fit

/-! ## Event counters (R174, R183) -/

/-- The counters of a port within their two bytes. -/
def PortLow (x : PortState) : Prop :=
  x.checkError ≤ 65535 ∧ x.malformed ≤ 65535 ∧ x.sourceRefused ≤ 65535 ∧ x.kindRefused ≤ 65535 ∧ x.transitDropped ≤ 65535

/-- Every event counter within its two bytes. -/
def CountersLow (s : State) : Prop :=
  PortLow s.crib ∧ PortLow s.hall ∧ s.guardBlocked ≤ 65535 ∧ (∀ h, (headAt s h).gaugeDiscarded ≤ 65535)
    ∧ (∀ c : Fin 4, s.tagDropped[c] ≤ 65535) ∧ s.handoffDropped ≤ 65535 ∧ s.usageMismatch ≤ 65535 ∧ s.mgmtDropped ≤ 65535

theorem countersLow_iff (s : State) : CountersLow s ↔ ∀ n ∈ eventCounters s, n ≤ 65535 := by
  have port : ∀ x : PortState, (∀ n ∈ portCounters x, n ≤ 65535) ↔ PortLow x := by
    intro x
    simp [portCounters, PortLow]
  have heads : (∀ n ∈ s.heads.toList.map (·.gaugeDiscarded), n ≤ 65535) ↔ ∀ h, (headAt s h).gaugeDiscarded ≤ 65535 := by
    simp only [List.forall_mem_map, mem_heads_iff]
    exact ⟨fun all h => all _ ⟨h, rfl⟩, by rintro all _ ⟨h, rfl⟩; exact all h⟩
  have tags : (∀ n ∈ s.tagDropped.toList, n ≤ 65535) ↔ ∀ c : Fin 4, s.tagDropped[c] ≤ 65535 := by
    simp only [Vector.mem_toList_iff, Vector.mem_iff_getElem]
    constructor
    · exact fun all c => all _ ⟨c, c.isLt, rfl⟩
    · rintro all _ ⟨i, low, rfl⟩
      exact all ⟨i, low⟩
  unfold eventCounters
  simp only [List.mem_append, or_imp, forall_and, port, heads, tags]
  simp [CountersLow, and_assoc]

theorem portLow_ports {s : State} (low : CountersLow s) (p : Port) : PortLow (portAt s p) := by
  obtain ⟨crib, hall, -⟩ := low
  cases p
  · exact crib
  · exact hall

theorem countersLow_putPort {s : State} (p : Port) {x : PortState} (low : CountersLow s) (new : PortLow x) :
    CountersLow (putPort p x s) := by
  obtain ⟨crib, hall, rest⟩ := low
  cases p
  · exact ⟨new, hall, rest⟩
  · exact ⟨crib, new, rest⟩

theorem lineChange_counters {s t : State} (changed : LineChange s t) (low : CountersLow s) : CountersLow t := by
  obtain ⟨crib, hall, guard_, heads, tags, handoff, usage, mgmt⟩ := low
  have all : CountersLow s := ⟨crib, hall, guard_, heads, tags, handoff, usage, mgmt⟩
  cases changed with
  | receptionEnded p => exact countersLow_putPort p all (portLow_ports all p)
  | lineCounted p c =>
    obtain ⟨check, malformed, source, kind, transit⟩ := portLow_ports all p
    refine countersLow_putPort p all ?_
    cases c
    · exact ⟨tally_le _, malformed, source, kind, transit⟩
    · exact ⟨check, tally_le _, source, kind, transit⟩
    · exact ⟨check, malformed, tally_le _, kind, transit⟩
    · exact ⟨check, malformed, source, tally_le _, transit⟩
  | transitDropped p =>
    obtain ⟨check, malformed, source, kind, -⟩ := portLow_ports all p
    exact countersLow_putPort p all ⟨check, malformed, source, kind, tally_le _⟩
  | transitEntered p => cases p <;> exact all
  | cribSent src => cases src <;> exact all
  | tagCounted c =>
    refine ⟨crib, hall, guard_, heads, fun c' => ?_, handoff, usage, mgmt⟩
    rw [Fin.getElem_fin, Vector.getElem_set]
    split
    next => exact tally_le _
    next => exact tags c'
  | guardCounted => exact ⟨crib, hall, tally_le _, heads, tags, handoff, usage, mgmt⟩
  | requestCounted => exact ⟨crib, hall, guard_, heads, tags, handoff, usage, tally_le _⟩
  | mismatchCounted => exact ⟨crib, hall, guard_, heads, tags, handoff, tally_le _, mgmt⟩
  | handoffCounted => exact ⟨crib, hall, guard_, heads, tags, tally_le _, usage, mgmt⟩
  | hallTransitSent | handoffSent | noticeEntered | noticeDiscarded | errorMarked | modeSet | auditSet | framesVoided => exact all

theorem countersLow_heads {s t : State} (low : CountersLow s) (same : t = { s with heads := t.heads })
    (heads : ∀ h, (headAt t h).gaugeDiscarded ≤ 65535) : CountersLow t := by
  obtain ⟨crib, hall, guard_, -, tags, handoff, usage, mgmt⟩ := low
  rw [same]
  exact ⟨crib, hall, guard_, heads, tags, handoff, usage, mgmt⟩

theorem gaugeDiscarded_putHead {s : State} {h : Fin 4} {x : Head} (low : ∀ h, (headAt s h).gaugeDiscarded ≤ 65535)
    (new : x.gaugeDiscarded ≤ 65535) (h' : Fin 4) : (headAt (putHead h x s) h').gaugeDiscarded ≤ 65535 := by
  rw [headAt_putHead]
  split
  next => exact new
  next => exact low h'

theorem headChange_counters {s t : State} (changed : HeadChange s t) (low : CountersLow s) : CountersLow t := by
  have heads := low.2.2.2.1
  refine countersLow_heads low (headChange_frame changed) ?_
  cases changed with
  | gaugeCounted h => exact gaugeDiscarded_putHead heads (tally_le _)
  | calWritten h b content =>
    refine gaugeDiscarded_putHead heads ?_
    have same : (withWrittenCal (headAt s h) b content).gaugeDiscarded = (headAt s h).gaugeDiscarded := by
      unfold withWrittenCal withCalBank
      cases b <;> dsimp only <;> split <;> rfl
    rw [same]
    exact heads h
  | slotMoved h | headFaulted h | readingEntered h | calCancelled h | calRequested h | calSwitched h | headRestored h =>
    exact gaugeDiscarded_putHead heads (heads h)

theorem gaugeDiscarded_ends {x y : Head} (ends : HeadEnds x y) : y.gaugeDiscarded = x.gaugeDiscarded := by
  cases ends <;> rfl

theorem gaugeDiscarded_evaluate (n : Nat) (s : State) (h : Fin 4) :
    (headAt (evaluate n s) h).gaugeDiscarded = (headAt s h).gaugeDiscarded := by
  rcases headAt_evaluate n s with ⟨same, -⟩ | ⟨r, -, -, mapped⟩
  · rw [same]
  · rw [mapped]
    unfold reviewPrior
    split <;> (try split) <;> rfl

theorem captureChange_gauge {s t : State} (changed : CaptureChange s t)
    (low : ∀ h, (headAt s h).gaugeDiscarded ≤ 65535) (h' : Fin 4) : (headAt t h').gaugeDiscarded ≤ 65535 := by
  cases changed with
  | captureAborted h c y ready armed ends =>
    exact gaugeDiscarded_putHead (by rw [headAt_setState]; exact low) (by rw [gaugeDiscarded_ends ends]; exact low h) h'
  | captureSettled h c c' r y ready armed same record ends =>
    exact gaugeDiscarded_putHead low (by rw [gaugeDiscarded_ends ends]; exact low h) h'
  | contactArmed h n r c =>
    exact gaugeDiscarded_putHead (s := putAssembly n { r with state := .measuring } s)
      (x := { headAt s h with slot := .armed c }) low (low h) h'
  | recordSwept n => exact (gaugeDiscarded_evaluate n s h').trans_le (low h')
  | recordReviewed n => exact (gaugeDiscarded_evaluate n s h').trans_le (low h')

theorem change_counters {s t : State} (changed : Change s t) (low : CountersLow s) : CountersLow t := by
  cases changed with
  | line changed => exact lineChange_counters changed low
  | head changed => exact headChange_counters changed low
  | capture changed =>
    have heads := captureChange_gauge changed low.2.2.2.1
    obtain ⟨crib, hall, guard_, -, tags, handoff, usage, mgmt⟩ := low
    rw [captureChange_frame changed]
    exact ⟨crib, hall, guard_, heads, tags, handoff, usage, mgmt⟩
  | record changed => rw [recordChange_frame changed]; exact low
  | type changed => rw [typeChange_frame changed]; exact low
  | machine changed => rw [machineChange_frame changed]; exact low
  | countersCleared =>
    have port : ∀ x, PortLow (clearedPort x) := by
      intro x
      simp [PortLow, clearedPort, PortState.reset]
    refine ⟨port _, port _, Nat.zero_le _, fun h => ?_, fun c => ?_, Nat.zero_le _, Nat.zero_le _, Nat.zero_le _⟩
    · simp [headAt, clearedCounters]
    · simp [clearedCounters]
  | lineReset =>
    obtain ⟨crib, hall, guard_, heads, tags, handoff, usage, mgmt⟩ := low
    have quiet : ∀ h, headAt (lineReset s) h = quietHead (headAt s h) := by intro h; simp [headAt, lineReset]
    have discarded : ∀ h, (headAt (lineReset s) h).gaugeDiscarded ≤ 65535 := fun h => by rw [quiet]; exact heads h
    rw [lineReset_eq] at discarded ⊢
    exact ⟨crib, hall, guard_, discarded, tags, handoff, usage, mgmt⟩
  | sweepEnded | sweepMoved => exact low

/-! ## The answer FIFO and the generation (R177, R181) -/

/-- No change enters an answer. -/
theorem change_answers {s t : State} (changed : Change s t) : t.answers.length ≤ s.answers.length := by
  cases changed with
  | line changed =>
    cases changed with
    | receptionEnded p | lineCounted p | transitDropped p | transitEntered p => cases p <;> exact le_rfl
    | cribSent src f _ =>
      cases src with
      | answer => exact (List.length_tail).trans_le (Nat.sub_le _ _)
      | transit | notice => exact le_rfl
    | _ => exact le_rfl
  | head changed => rw [headChange_frame changed]
  | capture changed => rw [captureChange_frame changed]
  | record changed => rw [recordChange_frame changed]
  | type changed => rw [typeChange_frame changed]
  | machine changed => rw [machineChange_frame changed]
  | lineReset => rw [lineReset_eq]; exact Nat.zero_le _
  | countersCleared | sweepEnded | sweepMoved => exact le_rfl

theorem changes_answers {s t : State} (chain : Changes s t) : t.answers.length ≤ s.answers.length := by
  induction chain with
  | refl => exact le_rfl
  | tail _ last ih => exact (change_answers last).trans ih

/-- The answer FIFO within its places and the generation within its width. -/
def RepliesFit (s : State) : Prop := s.answers.length ≤ 8 ∧ s.generation ≤ 65535

theorem repliesFit_grants {s : State} (fit : RepliesFit s) : RepliesFit (grants s) := by
  rw [grants_frame]
  exact fit

theorem written_answers {s u : State} (written : Written s u) : u.answers.length ≤ s.answers.length := by
  cases written with
  | chain chain => exact changes_answers chain
  | window => exact le_rfl

theorem event_replies {s t : State} (event : Event s t) (fit : RepliesFit s) : RepliesFit t := by
  cases event with
  | stays => exact fit
  | pinReleased => exact fit
  | keyMoved => exact fit
  | partKept p => cases p <;> exact fit
  | worked u _ chain =>
    obtain ⟨-, -, -, -, generation⟩ := changes_fix chain
    exact repliesFit_grants ⟨(changes_answers chain).trans fit.1, generation.trans_le fit.2⟩
  | answered u a _ room chain =>
    obtain ⟨-, -, -, -, generation⟩ := changes_fix chain
    refine repliesFit_grants ⟨?_, generation.trans_le fit.2⟩
    rw [pushAnswer]
    simp only [List.length_append]
    exact Nat.lt_of_le_of_lt (changes_answers chain) room

theorem wrote_replies {s t : State} (wrote : Wrote s t) : RepliesFit t := by
  obtain ⟨u, a, -, room, written, rfl⟩ := wrote
  refine repliesFit_grants ⟨?_, Nat.le_of_lt_succ (Nat.mod_lt _ (by decide))⟩
  rw [pushAnswer]
  simp only [List.length_append]
  exact Nat.lt_of_le_of_lt (written_answers (u := u) written) room

theorem step_replies {s t : State} (result : step s = .next t) (fit : RepliesFit s) : RepliesFit t := by
  unfold step at result
  split at result
  next => cases result; exact fit
  next i rest _ =>
    rcases exec_next result with ⟨-, rfl⟩ | ⟨-, rfl⟩ | event | wrote
    · exact ⟨Nat.zero_le _, Nat.zero_le _⟩
    · exact ⟨Nat.zero_le _, Nat.zero_le _⟩
    · exact event_replies event fit
    · exact wrote_replies wrote

theorem step_counts {s t : State} (result : step s = .next t) (counts : CountsInRange s) : CountsInRange t := by
  obtain ⟨crib, hall, answers, notices, waits, handoff, counters, discarded, generation, audit⟩ := counts
  have queues : QueuesFit t := step_keeps (fun quiet h => by rw [quiet]; exact h) change_queues (by unfold QueuesFit; decide)
    (fun _ _ _ h => h) result ⟨crib, hall, notices, waits, handoff, discarded, audit⟩
  have low : CountersLow t := step_keeps (fun quiet h => by rw [quiet]; exact h) change_counters
    ((countersLow_iff _).2 (by decide)) (fun _ _ _ h => h) result ((countersLow_iff s).2 counters)
  obtain ⟨answers', generation'⟩ := step_replies result ⟨answers, generation⟩
  obtain ⟨crib', hall', notices', waits', handoff', discarded', audit'⟩ := queues
  exact ⟨crib', hall', answers', notices', waits', handoff', (countersLow_iff t).1 low, discarded', generation', audit'⟩

/-! ## The stored types, windows and machine definitions -/

/-- `StoresLegal` over the readers of the state. -/
def Legal (s : State) : Prop :=
  (∀ k, TypeLegal (typeAt s k)) ∧ (∀ w ∈ s.holds.toList, WindowLegal w) ∧ ∀ m x, machineAt s m = some x → MachineLegal x

theorem typeLegal_reset : TypeLegal TypeRecord.reset := by
  unfold TypeLegal
  decide

theorem storesLegal_iff (s : State) : StoresLegal s ↔ Legal s := by
  have types : (∀ t ∈ s.types.toList, TypeLegal t) ↔ ∀ k, TypeLegal (typeAt s k) := by
    constructor
    · intro all k
      unfold typeAt
      cases get : s.types[k]? with
      | none => exact typeLegal_reset
      | some t =>
        obtain ⟨low, rfl⟩ := Vector.getElem?_eq_some_iff.1 get
        exact all _ (by simp)
    · intro all t mem
      obtain ⟨k, low, rfl⟩ := Vector.mem_iff_getElem.1 (Vector.mem_toList_iff.1 mem)
      have := all k
      rwa [typeAt, Vector.getElem?_eq_getElem low] at this
  have machines : (∀ x ∈ s.machines.toList, MachineLegal x) ↔ ∀ m x, machineAt s m = some x → MachineLegal x := by
    constructor
    · intro all m x machine
      unfold machineAt at machine
      split at machine
      next =>
        obtain ⟨low, rfl⟩ := Vector.getElem?_eq_some_iff.1 machine
        exact all _ (by simp)
      next => cases machine
    · intro all x mem
      obtain ⟨i, low, rfl⟩ := Vector.mem_iff_getElem.1 (Vector.mem_toList_iff.1 mem)
      exact all (i + 1) _ (by simp [machineAt, low])
  unfold StoresLegal Legal
  rw [types, machines]

theorem legal_putType {s : State} {k : Nat} {new : TypeRecord} (legal : Legal s) (type : TypeLegal new) :
    Legal (putType k new s) := by
  obtain ⟨types, holds, machines⟩ := legal
  refine ⟨fun m => ?_, holds, machines⟩
  rw [typeAt_putType]
  split
  next => exact type
  next => exact types m

theorem legal_countIn {s : State} (k : Nat) (legal : Legal s) : Legal (countIn k s) :=
  legal_putType legal (legal.1 k)

theorem legal_countOut {s : State} (k : Nat) (legal : Legal s) : Legal (countOut k s) :=
  legal_putType legal (legal.1 k)

theorem legal_bindTo {s : State} (n : Nat) (tag : Option Tag) (legal : Legal s) : Legal (bindTo n tag s) := by
  rw [bindTo_frame]
  exact legal

theorem legal_dropRecord {s : State} (old : Option Assembly) (legal : Legal s) : Legal (dropRecord old s) := by
  cases old with
  | none => exact legal
  | some r =>
    rw [dropRecord_some, unbindFrom_frame]
    exact legal_countOut (s := { s with tagMap := _ }) r.type legal

theorem legal_putMachine {s : State} {m : Nat} {x : MachineDef} (legal : Legal s) (new : MachineLegal x) :
    Legal (putMachine m x s) := by
  obtain ⟨types, holds, machines⟩ := legal
  refine ⟨fun k => ?_, ?_, fun m' x' machine => ?_⟩
  · rw [typeAt_putMachine]; exact types k
  · rw [putMachine_frame]; exact holds
  · rw [machineAt_putMachine] at machine
    split at machine
    next => cases machine; exact new
    next => exact machines m' x' machine

theorem recordChange_legal {s t : State} (changed : RecordChange s t) (legal : Legal s) : Legal t := by
  cases changed with
  | recordCreated n k tag => exact legal_countIn k (legal_bindTo n tag legal)
  | recordRestored n b r =>
    rw [enterPlace_frame]
    exact legal_countIn b.type (legal_bindTo n b.tag (legal_dropRecord (recordAt s n) legal))
  | recordRetyped n k r => exact legal_countIn k (legal_countOut r.type legal)
  | tagUnbound n r => rw [unbindFrom_frame]; exact legal
  | recordDeleted n r => exact legal_dropRecord (some r) legal
  | _ => exact legal

theorem machineLegal_drained {x : MachineDef} (w : ProfileSwitch) (legal : MachineLegal x) : MachineLegal (drained x w) := by
  unfold drained
  split <;> exact legal

theorem machineChange_legal {s t : State} (changed : MachineChange s t) (legal : Legal s) : Legal t := by
  have machines := legal.2.2
  cases changed with
  | machineStored m x defined magazine push machine low high emptied =>
    obtain ⟨-, -, paused, a, b⟩ := machines m x machine
    refine legal_putMachine legal ⟨low, high, fun is => ?_, a, b⟩
    obtain ⟨was, keeps⟩ := Bool.and_eq_true_iff.1 is
    have now := paused was
    simpa [now] using keeps
  | pausedSet m x p machine defined =>
    obtain ⟨low, high, -, a, b⟩ := machines m x machine
    exact legal_putMachine legal ⟨low, high, fun _ => defined, a, b⟩
  | profileStored m x b content machine short =>
    obtain ⟨low, high, paused, a, b'⟩ := machines m x machine
    refine legal_putMachine legal ?_
    cases b
    · exact ⟨low, high, paused, short, b'⟩
    · exact ⟨low, high, paused, a, short⟩
  | profileCancelled m x machine =>
    refine legal_putMachine ?_ (machines m x machine)
    split <;> exact legal
  | profileSwitched m x b machine => exact legal_putMachine legal (machines m x machine)
  | profileRequested m x b machine =>
    exact legal_putMachine (s := remarkWaiting m true s) legal (machines m x machine)
  | waiterJoined => exact legal
  | entryTaken => exact legal
  | markTaken e x w next marked machine =>
    exact legal_putMachine (s := entryMoved e s) legal (machineLegal_drained w (machines _ x machine))

theorem change_storesLegal {s t : State} (changed : Change s t) (stores : StoresLegal s) : StoresLegal t := by
  have legal := (storesLegal_iff s).1 stores
  refine (storesLegal_iff t).2 ?_
  cases changed with
  | line changed => rw [lineChange_frame changed]; exact legal
  | head changed => rw [headChange_frame changed]; exact legal
  | capture changed => rw [captureChange_frame changed]; exact legal
  | record changed => exact recordChange_legal changed legal
  | type changed =>
    cases changed with
    | typeStored k new low type => exact legal_putType legal type
    | typeJudged k new low idle type => exact legal_putType legal type
  | machine changed => exact machineChange_legal changed legal
  | lineReset =>
    obtain ⟨types, holds, machines⟩ := legal
    rw [lineReset_eq]
    refine ⟨types, holds, fun m x machine => ?_⟩
    unfold machineAt at machine
    split at machine
    next low =>
      rw [Vector.getElem?_map, Option.map_eq_some_iff] at machine
      obtain ⟨x₀, machine, rfl⟩ := machine
      exact machines m x₀ (by rw [machineAt, if_pos low]; exact machine)
    next => cases machine
  | countersCleared | sweepEnded | sweepMoved => exact legal

theorem storesLegal_window {s : State} (w : Nat) (new : HoldWindow) (window : WindowLegal new) (stores : StoresLegal s) :
    StoresLegal { s with holds := s.holds.setIfInBounds w new } := by
  obtain ⟨types, holds, machines⟩ := stores
  refine ⟨types, fun x mem => ?_, machines⟩
  obtain ⟨i, low, rfl⟩ := Vector.mem_iff_getElem.1 (Vector.mem_toList_iff.1 mem)
  rw [Vector.getElem_setIfInBounds]
  split
  next => exact window
  next => exact holds _ (by simp)

theorem reset_storesLegal : StoresLegal State.reset := by
  refine (storesLegal_iff _).2 ⟨fun k => ?_, ?_, fun m x machine => ?_⟩
  · unfold typeAt
    cases get : State.reset.types[k]? with
    | none => exact typeLegal_reset
    | some t =>
      obtain ⟨low, rfl⟩ := Vector.getElem?_eq_some_iff.1 get
      simpa [State.reset] using typeLegal_reset
  · simp [State.reset, WindowLegal, HoldWindow.reset]
  · unfold machineAt at machine
    split at machine
    next =>
      obtain ⟨low, rfl⟩ := Vector.getElem?_eq_some_iff.1 machine
      simp [State.reset, MachineLegal, MachineDef.reset, Profile.reset]
    next => cases machine

/-- Settles O45: the tables, the counts and the stores, each kept by every change. -/
theorem storesAndCountsStayInRange : Obligations.StoresAndCountsStayInRange := by
  intro s t result
  exact ⟨step_keeps (fun quiet h => by rw [quiet]; exact h) change_canonical reset_canonical (fun _ _ _ h => h) result,
    step_counts result,
    step_keeps (fun quiet h => by rw [quiet]; exact h) change_storesLegal reset_storesLegal storesLegal_window result⟩

end Sys2Proof.Ranges

/-! PROOFS. The issue map, the places of the records and the magazines agree after every change (R2, R101). -/

namespace Sys2Proof.Places

open Sys2Proof Sys2Proof.Machine Sys2Proof.Transitions Sys2Proof.Heads Sys2Proof.Records Sys2Proof.Counted
open Sys2Proof.Ranges

/-! ## The optional fields of a record (R2) -/

/-- The optional fields follow the state. -/
def Shape (r : Assembly) : Prop :=
  r.location.isSome = outOfCrib r.state ∧ (r.state = .withdrawn → r.reason.isSome = true)
    ∧ (r.reason.isSome = true → r.state = .withdrawn ∨ r.state = .retired)

/-- Neither out of the crib nor RETIRED. -/
def Plain (p : AsmState) : Prop := outOfCrib p = false ∧ p ≠ .withdrawn ∧ p ≠ .retired

theorem plain_of_contactable {p : AsmState} (free : contactable p = true) : Plain p := by
  cases p <;> simp_all [Plain, contactable, outOfCrib]

theorem plain_measuring : Plain .measuring := by simp [Plain, outOfCrib]

theorem Shape.bare {r : Assembly} (shape : Shape r) (plain : Plain r.state) : r.location = none ∧ r.reason = none := by
  obtain ⟨location, -, reason⟩ := shape
  obtain ⟨crib, unwithdrawn, unretired⟩ := plain
  refine ⟨Option.isNone_iff_eq_none.1 (by rw [← Option.not_isSome, location, crib]; rfl), ?_⟩
  rw [← Option.not_isSome_iff_eq_none]
  intro some
  rcases reason some with is | is
  · exact unwithdrawn is
  · exact unretired is

theorem shape_bare {r : Assembly} (plain : Plain r.state) (location : r.location = none) (reason : r.reason = none) :
    Shape r :=
  ⟨by rw [location, plain.1]; rfl, fun is => absurd is plain.2.1, fun some => by rw [reason] at some; cases some⟩

/-- A plain record stays in shape in any other plain state. -/
theorem Shape.moved {r r' : Assembly} (shape : Shape r) (plain : Plain r.state) (plain' : Plain r'.state)
    (location : r'.location = r.location) (reason : r'.reason = r.reason) : Shape r' :=
  shape_bare plain' (location.trans (shape.bare plain).1) (reason.trans (shape.bare plain).2)

theorem Shape.congr {r r' : Assembly} (shape : Shape r) (state : r'.state = r.state) (location : r'.location = r.location)
    (reason : r'.reason = r.reason) : Shape r' := by
  unfold Shape
  rw [state, location, reason]
  exact shape

theorem Shape.evaluated {r : Assembly} (shape : Shape r) (t : TypeRecord) : Shape (evaluated t r) := by
  rcases evaluated_cases t r with ⟨free, is⟩ | ⟨-, is⟩ | ⟨-, is⟩ <;> rw [is]
  · exact shape.moved (plain_of_contactable free) (plain_of_contactable (outcomeOf_contactable t r r.state)) rfl rfl
  · exact shape.congr rfl rfl rfl
  · exact shape.congr rfl rfl rfl

theorem shape_settled {r : Assembly} (shape : Shape r) (measuring : r.state = .measuring) (h : Fin 4) (c : Capture)
    (t : TypeRecord) : Shape (settledRecord h c t r) := by
  refine shape.moved (by rw [measuring]; exact plain_measuring) (plain_of_contactable (outcomeOf_contactable _ _ _)) ?_ ?_
  all_goals unfold settledRecord withEntry; cases c.axis <;> rfl

theorem shape_restored {b : RestoreBody} {r : Assembly} (described : describedRecord? b = some r) (t : TypeRecord) :
    Shape (restoredRecord t r) := by
  obtain ⟨-, -, -, -, -, -, location, withdrawn, reason⟩ := describedRecord?_spec described
  have shape : Shape r := ⟨location, withdrawn, reason⟩
  have judged : contactable r.state = true → Shape { r with state := outcomeOf t r .rejected } := fun free =>
    shape.moved (plain_of_contactable free) (plain_of_contactable (outcomeOf_contactable t r .rejected)) rfl rfl
  unfold restoredRecord
  cases state : r.state <;> simp only
  case preset | rejected => exact judged (by rw [state]; rfl)
  case issued | inService => exact shape.evaluated t
  all_goals exact shape

theorem shape_returned {r : Assembly} (shape : Shape r) (out : outOfCrib r.state = true) (t : TypeRecord) (draw : Nat) :
    Shape (returnedRecord (returnOutcome t r draw) r) := by
  obtain ⟨-, withdrawn, reason⟩ := shape
  have bare : r.state ≠ .withdrawn → r.reason = none := by
    intro other
    rw [← Option.not_isSome_iff_eq_none]
    intro some
    rcases reason some with is | is
    · exact other is
    · rw [is] at out; cases out
  unfold returnOutcome
  split_ifs with is recheck audit
  · exact ⟨rfl, (by rintro ⟨⟩), fun _ => .inr rfl⟩
  · exact shape_bare (by simp [Plain, returnedRecord, outOfCrib]) rfl (bare is)
  · exact shape_bare (by simp [Plain, returnedRecord, outOfCrib]) rfl (bare is)
  · exact shape_bare (by simp [Plain, returnedRecord, outOfCrib]) rfl (bare is)

/-! ## The issue map (R101) -/

/-- The place of a record as a key of the issue map. -/
def placeOf (s : State) (n : Nat) : Option Nat := (recordAt s n).bind fun r => r.location.map placeKey

/-- `PlacesMatch` over the records of a canonical state. -/
def Placed (s : State) : Prop := Indexes s.issueMap (placeOf s) ∧ ∀ n r, recordAt s n = some r → Shape r

theorem placesMatch_iff {s : State} (canonical : TablesCanonical s) : PlacesMatch s ↔ Placed s := by
  obtain ⟨records, -, places⟩ := (tablesCanonical_iff s).1 canonical
  have keyed : ∀ n x, placeOf s n = some x ↔ ∃ r, recordAt s n = some r ∧ r.location.map placeKey = some x := by
    intro n x
    simp only [placeOf, Option.bind_eq_some_iff]
  have all : (∀ e ∈ s.assemblies, e.2.location.isSome = outOfCrib e.2.state
        ∧ (e.2.location.all fun p => tableGet s.issueMap (placeKey p) = some e.1) = true
        ∧ (e.2.state = .withdrawn → e.2.reason.isSome = true)
        ∧ (e.2.reason.isSome = true → e.2.state = .withdrawn ∨ e.2.state = .retired))
      ↔ ∀ n r, recordAt s n = some r → Shape r
        ∧ ∀ x, r.location.map placeKey = some x → tableGet s.issueMap x = some n := by
    refine (forall_mem_iff records (p := fun n r => r.location.isSome = outOfCrib r.state
        ∧ (r.location.all fun p => tableGet s.issueMap (placeKey p) = some n) = true
        ∧ (r.state = .withdrawn → r.reason.isSome = true)
        ∧ (r.reason.isSome = true → r.state = .withdrawn ∨ r.state = .retired))).trans ?_
    refine forall_congr' fun n => forall_congr' fun r => imp_congr_right fun _ => ?_
    simp only [Shape, Option.all_eq_true, decide_eq_true_eq, Option.map_eq_some_iff, forall_exists_index, and_imp,
      forall_apply_eq_imp_iff₂]
    tauto
  unfold PlacesMatch Placed
  rw [all]
  constructor
  · rintro ⟨entries, records'⟩
    refine ⟨fun x n => ⟨fun entry => ?_, fun at_ => ?_⟩, fun n r record => (records' n r record).1⟩
    · obtain ⟨r, record, both⟩ := (Option.any_eq_true _ _).1 (entries (x, n) (mem_of_tableGet entry))
      simp only [Bool.and_eq_true, decide_eq_true_eq] at both
      exact (keyed n x).2 ⟨r, record, both.2⟩
    · obtain ⟨r, record, at_⟩ := (keyed n x).1 at_
      exact (records' n r record).2 x at_
  · rintro ⟨indexes, shapes⟩
    refine ⟨fun e mem => ?_, fun n r record => ⟨shapes n r record, fun x at_ => (indexes x n).2 ((keyed n x).2 ⟨r, record, at_⟩)⟩⟩
    obtain ⟨r, record, at_⟩ := (keyed e.2 e.1).1 ((indexes e.1 e.2).1 (tableGet_of_mem places mem))
    have out : outOfCrib r.state = true := by
      rw [← (shapes e.2 r record).1]
      obtain ⟨p, is, -⟩ := Option.map_eq_some_iff.1 at_
      rw [is]; rfl
    rw [record]
    simp only [Option.any_some, out, at_, Bool.true_and, decide_true]

theorem placeOf_sameBy {s t : State} (same : SameBy Assembly.location s t) : placeOf t = placeOf s := by
  have read : ∀ u n, placeOf u n = ((recordAt u n).map (·.location)).bind fun x => x.map placeKey := by
    intro u n
    rw [placeOf]
    cases recordAt u n <;> rfl
  funext n
  rw [read, read, same.1]

/-- One record changed, and the issue map with its place. -/
theorem placed_record {s t : State} {n : Nat} {new : Option Assembly} (placed : Placed s)
    (after : ∀ m, recordAt t m = if m = n then new else recordAt s m) (shape : ∀ r, new = some r → Shape r)
    (entries : ∀ x, tableGet t.issueMap x = if (new.bind fun r => r.location.map placeKey) = some x then some n
      else if placeOf s n = some x then none else tableGet s.issueMap x)
    (free : ∀ r p, new = some r → r.location = some p → ∀ m, tableGet s.issueMap (placeKey p) = some m → m = n) :
    Placed t := by
  obtain ⟨indexes, shapes⟩ := placed
  refine ⟨indexes_edit indexes (n := n) (new := new.bind fun r => r.location.map placeKey) (fun m => ?_) entries ?_, ?_⟩
  · rw [placeOf, after]
    split <;> rfl
  · intro x has m entry
    simp only [Option.bind_eq_some_iff, Option.map_eq_some_iff] at has
    obtain ⟨r, is, p, at_, rfl⟩ := has
    exact free r p is at_ m entry
  · intro m r record
    rw [after] at record
    split at record
    next => exact shape r record
    next => exact shapes m r record

/-- A record changed in its place. -/
theorem placed_put {s t : State} {n : Nat} {r r' : Assembly} (canonical : Canonical s.assemblies) (placed : Placed s)
    (record : recordAt s n = some r) (stored : t.assemblies = tableSet s.assemblies n r') (places : t.issueMap = s.issueMap)
    (location : r'.location = r.location) (shape : Shape r → Shape r') : Placed t := by
  obtain ⟨indexes, shapes⟩ := placed
  refine ⟨indexes_congr places (placeOf_sameBy (sameBy_put canonical record stored location)) indexes, fun m x is => ?_⟩
  rw [recordAt, stored, tableGet_tableSet] at is
  split at is
  next => cases is; exact shape (shapes n r record)
  next => exact shapes m x is

theorem placeOf_some {s : State} {n : Nat} {r : Assembly} (record : recordAt s n = some r) :
    placeOf s n = r.location.map placeKey := by
  rw [placeOf, record]; rfl

theorem tableGet_enterPlace (n : Nat) (location : Option Place) (s : State) (x : Nat) :
    tableGet (enterPlace n location s).issueMap x
      = if location.map placeKey = some x then some n else tableGet s.issueMap x := by
  cases location with
  | none => rfl
  | some p =>
    simp only [enterPlace, tableGet_tableSet, Option.map_some, Option.some_inj]
    exact if_congr eq_comm rfl rfl

theorem tableGet_tableEraseValue {t : Table Nat} (rising : t.Pairwise fun a b => a.1 < b.1) (v x : Nat) :
    tableGet (tableEraseValue t v) x = if tableGet t x = some v then none else tableGet t x := by
  have erased := tableEraseValue_sorted v rising
  have iff : ∀ n, tableGet (tableEraseValue t v) x = some n ↔ tableGet t x = some n ∧ n ≠ v := by
    intro n
    constructor
    · intro entry
      obtain ⟨mem, other⟩ := List.mem_filter.1 (mem_of_tableGet entry)
      exact ⟨tableGet_of_mem rising mem, by simpa using other⟩
    · rintro ⟨entry, other⟩
      exact tableGet_of_mem erased (e := (x, n)) (List.mem_filter.2 ⟨mem_of_tableGet entry, by simpa using other⟩)
  apply Option.ext
  intro n
  rw [iff]
  split
  next is => simp [is]; exact fun h => h.symm
  next other =>
    refine ⟨And.left, fun entry => ⟨entry, ?_⟩⟩
    rintro rfl
    exact other entry

theorem inCrib_plain_or_retired {p : AsmState} (crib : inCrib p = true) : outOfCrib p = false := by
  cases p <;> simp_all [inCrib, outOfCrib]

/-- A record in the crib has no place. -/
theorem placeOf_inCrib {s : State} {n : Nat} {r : Assembly} (placed : Placed s) (record : recordAt s n = some r)
    (crib : inCrib r.state = true) : placeOf s n = none := by
  have location := (placed.2 n r record).1
  rw [inCrib_plain_or_retired crib, Option.isSome_eq_false_iff, Option.isNone_iff_eq_none] at location
  rw [placeOf_some record, location]
  rfl

/-- A location that RESTORE accepts lies in the magazine of a defined machine and is empty (R14). -/
theorem placed_of_locationRefusal {s : State} {p : Place} (free : locationRefusal s (some p) = none) :
    (∃ x, machineAt s p.machine = some x ∧ x.defined = true ∧ 1 ≤ p.pocket ∧ p.pocket ≤ x.magazine)
      ∧ occupant s p = none := by
  unfold locationRefusal at free
  dsimp only at free
  split at free
  next => cases free
  next x machine =>
    split_ifs at free with bad occupied
    simp only [not_or, Bool.not_eq_false, not_lt] at bad
    exact ⟨⟨x, machine, bad.1, Nat.pos_of_ne_zero bad.2.1, bad.2.2⟩, by simpa using occupied⟩

theorem recordChange_placed {s t : State} (changed : RecordChange s t) (canonical : TablesCanonical s) (placed : Placed s) :
    Placed t := by
  obtain ⟨records, -, places⟩ := (tablesCanonical_iff s).1 canonical
  obtain ⟨indexes, shapes⟩ := placed
  have placed : Placed s := ⟨indexes, shapes⟩
  cases changed with
  | recordUsed n r u record => exact placed_put records placed record rfl rfl rfl fun shape => shape.congr rfl rfl rfl
  | recordWithdrawn n r u reason record out =>
    refine placed_put (r' := { usedRecord u r with state := .withdrawn, reason := some reason }) records placed record
      rfl rfl rfl fun shape => ⟨shape.1.trans ?_, fun _ => rfl, fun _ => .inl rfl⟩
    rcases out with is | is <;> rw [is] <;> rfl
  | serviceEntered n r record issued =>
    refine placed_put (r' := { r with state := .inService }) records placed record rfl rfl rfl fun shape => ?_
    obtain ⟨location, -, reason⟩ := shape
    refine ⟨location.trans (by rw [issued]; rfl), (by rintro ⟨⟩), fun some => ?_⟩
    rcases reason some with is | is <;> rw [issued] at is <;> cases is
  | recordIssued p n r x record unheld preset machine defined low high empty =>
    have shape := shapes n r record
    have plain : Plain r.state := plain_of_contactable (by rw [preset]; rfl)
    refine placed_record placed (n := n) (new := some { r with state := .issued, location := some p })
      (recordAt_putAssembly _ _ · _) ?_ (fun x => ?_) ?_
    · rintro _ ⟨⟩
      have reason := (shape.bare plain).2
      exact ⟨rfl, (by rintro ⟨⟩), fun some => by rw [show r.reason = none from reason] at some; cases some⟩
    · rw [placeOf_some record, (shape.bare plain).1]
      exact (tableGet_tableSet _ _ _ _).trans (if_congr (by simp [eq_comm]) rfl rfl)
    · rintro _ _ ⟨⟩ ⟨⟩ m entry
      rw [show tableGet s.issueMap (placeKey p) = none from empty] at entry
      cases entry
  | recordReturned n r draw record out =>
    refine placed_record placed (n := n) (new := some (returnedRecord (returnOutcome (typeAt s r.type) r draw) r))
      (recordAt_putAssembly _ _ · _) ?_ (fun x => ?_) ?_
    · rintro _ ⟨⟩
      exact shape_returned (shapes n r record) out _ _
    · have gone : (returnedRecord (returnOutcome (typeAt s r.type) r draw) r).location = none := by
        cases returnOutcome (typeAt s r.type) r draw <;> rfl
      refine (tableGet_tableEraseValue places n x).trans ((if_congr (indexes x n) rfl rfl).trans ?_)
      simp [gone]
    · rintro _ p ⟨⟩ at_
      cases out : returnOutcome (typeAt s r.type) r draw <;> rw [out] at at_ <;> cases at_
  | recordCreated n k tag low absent =>
    refine placed_record placed (n := n) (new := some (createdRecord k tag)) (recordAt_created n k tag _ s) ?_ (fun x => ?_) ?_
    · rintro _ ⟨⟩
      exact shape_bare (by simp [Plain, createdRecord, outOfCrib]) rfl rfl
    · have gone : placeOf s n = none := by rw [placeOf, absent]; rfl
      rw [gone, bindTo_frame]
      rfl
    · rintro _ p ⟨⟩ ⟨⟩
  | recordRestored n b r low unheld replaceable described usable unbound free =>
    obtain ⟨-, -, location, unmarked, -⟩ := describedRecord?_spec described
    have location' : (restoredRecord (typeAt s b.type) r).location = b.location :=
      (restoredRecord_fixes _ unmarked).2.2.1.trans location
    have gone : placeOf s n = none := by
      cases old : recordAt s n with
      | none => rw [placeOf, old]; rfl
      | some r₀ => exact placeOf_inCrib placed old (replaceable r₀ old)
    refine placed_record placed (n := n) (new := some (restoredRecord (typeAt s b.type) r)) (recordAt_restored n b _ s) ?_
      (fun x => ?_) ?_
    · rintro _ ⟨⟩
      exact shape_restored described _
    · rw [gone, Option.bind_some, location', bindTo_frame, dropRecord_frame]
      exact tableGet_enterPlace n b.location _ x
    · rintro _ p ⟨⟩ at_ m entry
      rw [← location', at_] at free
      rw [show tableGet s.issueMap (placeKey p) = none from (placed_of_locationRefusal free).2] at entry
      cases entry
  | recordRetyped n k r record crib =>
    exact placed_put records placed record rfl rfl (evaluated_fixes _ _).2.2.1 fun shape =>
      Shape.evaluated (r := { r with type := k }) (shape.congr rfl rfl rfl) _
  | tagBound n r tag record =>
    exact placed_put (r' := { r with tag := some tag }) records placed record rfl rfl rfl fun shape => shape.congr rfl rfl rfl
  | tagUnbound n r record =>
    rw [unbindFrom_frame]
    exact placed_put (r' := { r with tag := none }) records placed record rfl rfl rfl fun shape => shape.congr rfl rfl rfl
  | recordRebuilt n r record retired =>
    refine placed_put records placed record rfl rfl rfl fun shape => ?_
    refine shape_bare (by simp [Plain, rebuiltRecord, outOfCrib]) ?_ rfl
    have location := shape.1
    rw [retired] at location
    have gone : r.location = none := Option.isNone_iff_eq_none.1 (by rw [← Option.not_isSome, location]; rfl)
    exact gone
  | recordDeleted n r record crib =>
    refine placed_record placed (n := n) (new := none) (recordAt_deleted n r s) (by simp) (fun x => ?_) (by simp)
    rw [placeOf_inCrib placed record crib, dropRecord_frame]
    rfl

theorem captureChange_placed {s t : State} (changed : CaptureChange s t) (canonical : Canonical s.assemblies)
    (matched : Matched s) (placed : Placed s) : Placed t := by
  have places : t.issueMap = s.issueMap := by rw [captureChange_frame changed]
  have keys : placeOf t = placeOf s :=
    placeOf_sameBy (captureChange_sameBy changed canonical fun _ _ _ _ _ _ => rfl)
  obtain ⟨indexes, shapes⟩ := placed
  refine ⟨indexes_congr places keys indexes, ?_⟩
  have evaluates : ∀ n m r, recordAt (evaluate n s) m = some r → Shape r := by
    intro n m r record
    by_cases here : m = n
    · subst here
      cases old : recordAt s m with
      | none => unfold evaluate at record; rw [old] at record; exact shapes m r record
      | some r₀ =>
        rw [recordAt_evaluate_same old] at record
        cases record
        exact (shapes m r₀ old).evaluated _
    · rw [recordAt_evaluate_other s here] at record
      exact shapes m r record
  cases changed with
  | captureAborted h c y ready armed ends =>
    intro m r record
    obtain ⟨free, r₀, record₀, measuring⟩ := matched.sound (held_armed armed)
    rw [recordAt_putHead, recordAt_setState, record₀] at record
    split at record
    next =>
      cases record
      exact (shapes _ r₀ record₀).moved (by rw [measuring]; exact plain_measuring) (plain_of_contactable free) rfl rfl
    next => exact shapes m r record
  | captureSettled h c c' r y ready armed same record ends =>
    intro m r' record'
    obtain ⟨-, r₀, record₀, measuring⟩ := matched.sound (held_armed armed)
    rw [record] at record₀
    cases record₀
    rw [recordAt_putHead, recordAt_putAssembly] at record'
    split at record'
    next => cases record'; exact shape_settled (shapes _ r record) measuring _ _ _
    next => exact shapes m r' record'
  | contactArmed h n r c ready idle record unheld free =>
    intro m r' record'
    rw [recordAt_putHead, recordAt_putAssembly] at record'
    split at record'
    next => cases record'; exact (shapes n r record).moved (plain_of_contactable free) plain_measuring rfl rfl
    next => exact shapes m r' record'
  | recordSwept n running next => exact evaluates n
  | recordReviewed n r record marked => exact evaluates n

theorem lineReset_placed {s : State} (canonical : Canonical s.assemblies) (matched : Matched s) (placed : Placed s) :
    Placed (lineReset s) := by
  obtain ⟨indexes, shapes⟩ := placed
  have keys : placeOf (lineReset s) = placeOf s := placeOf_sameBy (sameBy_lineReset canonical fun _ _ => rfl)
  refine ⟨indexes_congr (by rw [lineReset_eq]) keys indexes, fun n r record => ?_⟩
  by_cases free : ∀ h p, held s h ≠ some (n, p)
  · rw [recordAt_lineReset_free free] at record
    exact shapes n r record
  · push Not at free
    obtain ⟨h, p, hold⟩ := free
    obtain ⟨contact, r₀, record₀, measuring⟩ := matched.sound hold
    rw [recordAt_lineReset_held hold fun h' q other => matched.once other hold, record₀] at record
    cases record
    exact (shapes n r₀ record₀).moved (by rw [measuring]; exact plain_measuring) (plain_of_contactable contact) rfl rfl

theorem change_placed {s t : State} (changed : Change s t) (canonical : TablesCanonical s) (matched : Matched s)
    (placed : Placed s) : Placed t := by
  have records := ((tablesCanonical_iff s).1 canonical).1
  cases changed with
  | line changed => rw [lineChange_frame changed]; exact placed
  | head changed => rw [headChange_frame changed]; exact placed
  | capture changed => exact captureChange_placed changed records matched placed
  | record changed => exact recordChange_placed changed canonical placed
  | type changed =>
    cases changed with
    | typeStored => exact placed
    | typeJudged k new =>
      have fixes : ∀ r, (markRecord k r).location = r.location ∧ (markRecord k r).state = r.state
          ∧ (markRecord k r).reason = r.reason := by
        intro r
        unfold markRecord
        split <;> exact ⟨rfl, rfl, rfl⟩
      obtain ⟨indexes, shapes⟩ := placed
      refine ⟨indexes_congr rfl (placeOf_sameBy (sameBy_markType (s := putType k new s) k fun r => (fixes r).1)) indexes, ?_⟩
      intro n r record
      rw [recordAt_markType, Option.map_eq_some_iff] at record
      obtain ⟨r₀, record₀, rfl⟩ := record
      exact (shapes n r₀ record₀).congr (fixes r₀).2.1 (fixes r₀).1 (fixes r₀).2.2
  | machine changed => rw [machineChange_frame changed]; exact placed
  | lineReset => exact lineReset_placed records matched placed
  | countersCleared | sweepEnded | sweepMoved => exact placed

/-! ## The magazines (R101, R121) -/

/-- A key of the issue map lies in the magazine of a defined machine. -/
def Housed (s : State) (key : Nat) : Prop :=
  ∃ x, machineAt s (key / 256) = some x ∧ x.defined = true ∧ 1 ≤ key % 256 ∧ key % 256 ≤ x.magazine

theorem magazinesHold_iff (s : State) : MagazinesHold s ↔ ∀ e ∈ s.issueMap, Housed s e.1 := by
  unfold MagazinesHold Housed
  refine forall_congr' fun e => imp_congr_right fun _ => ?_
  simp only [Option.any_eq_true, Bool.and_eq_true, decide_eq_true_eq, and_assoc]

theorem placeKey_div {p : Place} (low : p.pocket < 256) : placeKey p / 256 = p.machine ∧ placeKey p % 256 = p.pocket := by
  unfold placeKey
  omega

theorem housed_place {s : State} {p : Place} {x : MachineDef} (legal : StoresLegal s)
    (machine : machineAt s p.machine = some x) (defined : x.defined = true) (low : 1 ≤ p.pocket)
    (high : p.pocket ≤ x.magazine) : Housed s (placeKey p) := by
  obtain ⟨-, small, -⟩ := ((storesLegal_iff s).1 legal).2.2 _ _ machine
  obtain ⟨div, mod⟩ := placeKey_div (p := p) (by omega)
  exact ⟨x, by rw [div]; exact machine, defined, by rw [mod]; exact low, by rw [mod]; exact high⟩

theorem housed_congr {s t : State} (same : machineAt t = machineAt s) {key : Nat} (housed : Housed s key) : Housed t key := by
  unfold Housed
  rw [same]
  exact housed

theorem recordChange_housed {s t : State} (changed : RecordChange s t) (legal : StoresLegal s)
    (housed : ∀ e ∈ s.issueMap, Housed s e.1) : ∀ e ∈ t.issueMap, Housed s e.1 := by
  cases changed with
  | recordIssued p n r x record unheld preset machine defined low high =>
    intro e mem
    rcases mem_tableSet mem with rfl | old
    · exact housed_place legal machine defined low high
    · exact housed e old
  | recordReturned n r draw record => exact fun e mem => housed e (List.mem_of_mem_filter mem)
  | recordRestored n b r low unheld replaceable described usable unbound free =>
    rw [bindTo_frame, dropRecord_frame]
    cases at_ : b.location with
    | none => exact housed
    | some p =>
      rw [at_] at free
      obtain ⟨⟨x, machine, defined, low, high⟩, -⟩ := placed_of_locationRefusal free
      intro e mem
      rcases mem_tableSet mem with rfl | old
      · exact housed_place legal machine defined low high
      · exact housed e old
  | recordCreated n k tag => rw [bindTo_frame]; exact housed
  | tagUnbound n r => rw [unbindFrom_frame]; exact housed
  | recordDeleted n r => rw [dropRecord_frame]; exact housed
  | _ => exact housed

/-- A stored machine that keeps its definition and its magazine houses what it housed. -/
theorem housed_putMachine {s : State} {m : Nat} {x x' : MachineDef} {key : Nat} (machine : machineAt s m = some x)
    (kept : key / 256 = m → x.defined = true → 1 ≤ key % 256 → key % 256 ≤ x.magazine →
      x'.defined = true ∧ key % 256 ≤ x'.magazine) (housed : Housed s key) : Housed (putMachine m x' s) key := by
  obtain ⟨y, at_, defined, low, high⟩ := housed
  unfold Housed
  rw [machineAt_putMachine]
  split
  next here =>
    rw [here.1, machine] at at_
    cases at_
    obtain ⟨defined', high'⟩ := kept here.1 defined low high
    exact ⟨x', rfl, defined', low, high'⟩
  next => exact ⟨y, at_, defined, low, high⟩

theorem free_of_occupiedAbove {s : State} {m size : Nat} (free : occupiedAbove s m size = false) {e : Nat × Nat}
    (mem : e ∈ s.issueMap) (here : e.1 / 256 = m) : e.1 % 256 ≤ size := by
  by_contra above
  have := List.any_eq_false.1 free e mem
  simp [here] at this
  omega

theorem machineChange_housed {s t : State} (changed : MachineChange s t) (housed : ∀ e ∈ s.issueMap, Housed s e.1) :
    ∀ e ∈ s.issueMap, Housed t e.1 := by
  intro e mem
  have at_ := housed e mem
  cases changed with
  | machineStored m x defined magazine push machine low high emptied shrunk =>
    refine housed_putMachine machine (fun here was pocket fits => ?_) at_
    have now : defined = true := by
      by_contra off
      rw [Bool.not_eq_true] at off
      have := free_of_occupiedAbove (emptied was off).1 mem here
      omega
    refine ⟨now, ?_⟩
    by_cases smaller : magazine < x.magazine
    · exact free_of_occupiedAbove (shrunk was now smaller) mem here
    · dsimp only; omega
  | pausedSet m x p machine => exact housed_putMachine machine (fun _ was _ fits => ⟨was, fits⟩) at_
  | profileStored m x b content machine =>
    refine housed_putMachine machine (fun _ was _ fits => ?_) at_
    cases b <;> exact ⟨was, fits⟩
  | profileCancelled m x machine =>
    have still : machineAt (if x.switch.isSome then remarkWaiting m false s else s) = machineAt s := by
      split <;> rfl
    exact housed_putMachine (x := x) (by rw [still]; exact machine) (fun _ was _ fits => ⟨was, fits⟩) (housed_congr still at_)
  | profileSwitched m x b machine => exact housed_putMachine machine (fun _ was _ fits => ⟨was, fits⟩) at_
  | profileRequested m x b machine =>
    exact housed_putMachine (s := remarkWaiting m true s) machine (fun _ was _ fits => ⟨was, fits⟩) at_
  | waiterJoined => exact at_
  | entryTaken => exact at_
  | markTaken e' x w next marked machine =>
    refine housed_putMachine (s := entryMoved e' s) machine (fun _ was _ fits => ?_) at_
    unfold drained
    split <;> exact ⟨was, fits⟩

theorem change_magazines {s t : State} (changed : Change s t) (legal : StoresLegal s) (magazines : MagazinesHold s) :
    MagazinesHold t := by
  have housed := (magazinesHold_iff s).1 magazines
  refine (magazinesHold_iff t).2 ?_
  cases changed with
  | line changed => rw [lineChange_frame changed]; exact housed
  | head changed => rw [headChange_frame changed]; exact housed
  | capture changed => rw [captureChange_frame changed]; exact housed
  | record changed =>
    intro e mem
    have still : machineAt t = machineAt s := by rw [recordChange_frame changed]; rfl
    exact housed_congr still (recordChange_housed changed legal housed e mem)
  | type changed => rw [typeChange_frame changed]; exact housed
  | machine changed =>
    have same : t.issueMap = s.issueMap := by rw [machineChange_frame changed]
    rw [same]
    exact machineChange_housed changed housed
  | lineReset =>
    rw [lineReset_eq]
    intro e mem
    obtain ⟨x, machine, defined, low, high⟩ := housed e mem
    refine ⟨{ x with switch := none }, ?_, defined, low, high⟩
    unfold machineAt at machine ⊢
    split at machine
    next one => rw [if_pos one, Vector.getElem?_map, machine]; rfl
    next => cases machine
  | countersCleared | sweepEnded | sweepMoved => exact housed

/-- What every step keeps so that the places agree. -/
def PlacesKept (s : State) : Prop := Kept s ∧ StoresLegal s ∧ PlacesMatch s ∧ MagazinesHold s

theorem change_placesKept {s t : State} (changed : Change s t) (keeps : PlacesKept s) : PlacesKept t := by
  obtain ⟨kept, legal, places, magazines⟩ := keeps
  have kept' := change_kept changed kept
  have placed := change_placed changed kept.1 kept.matched ((placesMatch_iff kept.1).1 places)
  exact ⟨kept', change_storesLegal changed legal, (placesMatch_iff kept'.1).2 placed, change_magazines changed legal magazines⟩

theorem placesKept_window {s : State} (w : Nat) (new : HoldWindow) (window : WindowLegal new) (keeps : PlacesKept s) :
    PlacesKept { s with holds := s.holds.setIfInBounds w new } := by
  obtain ⟨kept, legal, places⟩ := keeps
  exact ⟨kept, storesLegal_window w new window legal, places⟩

/-- Settles O47: a place enters and leaves the issue map with its record, and no machine loses a place in use. -/
theorem placesStayMatched : Obligations.PlacesStayMatched := by
  intro s t canonical captures legal places magazines result
  have start : PlacesKept State.reset :=
    ⟨reset_kept, reset_storesLegal, by simp [PlacesMatch, State.reset], by simp [MagazinesHold, State.reset]⟩
  have keeps : PlacesKept t := step_keeps (fun quiet h => by rw [quiet]; exact h) change_placesKept start placesKept_window
    result ⟨⟨canonical, captures⟩, legal, places, magazines⟩
  exact keeps.2.2

end Sys2Proof.Places

/-! PROOFS. The wait list names each pair once, and each pending profile switch counts the marked entries of its
machine (R130 to R138). -/

namespace Sys2Proof.Waiters

open Sys2Proof Sys2Proof.Machine Sys2Proof.Transitions

/-! ## Distinct pairs (R138) -/

theorem pairs_remarkWaiting (m : Nat) (mark : Bool) (s : State) :
    (remarkWaiting m mark s).waitList.map (fun e => (e.machine, e.pocket))
      = s.waitList.map fun e => (e.machine, e.pocket) := by
  rw [remarkWaiting, List.map_map]
  refine List.map_congr_left fun e _ => ?_
  simp only [Function.comp_apply]
  split <;> rfl

theorem distinct_putMachine {s : State} (m : Nat) (x : MachineDef) (distinct : WaitersDistinct s) :
    WaitersDistinct (putMachine m x s) := by
  rw [putMachine_frame]
  exact distinct

theorem distinct_remarkWaiting {s : State} (m : Nat) (mark : Bool) (distinct : WaitersDistinct s) :
    WaitersDistinct (remarkWaiting m mark s) := by
  unfold WaitersDistinct
  rw [pairs_remarkWaiting]
  exact distinct

theorem distinct_entryMoved {s : State} (e : WaitEntry) (distinct : WaitersDistinct s) : WaitersDistinct (entryMoved e s) :=
  (List.erase_sublist.map _).nodup distinct

theorem machineChange_distinct {s t : State} (changed : MachineChange s t) (distinct : WaitersDistinct s) :
    WaitersDistinct t := by
  cases changed with
  | profileCancelled m x =>
    refine distinct_putMachine _ _ ?_
    split
    next => exact distinct_remarkWaiting _ _ distinct
    next => exact distinct
  | profileRequested => exact distinct_putMachine _ _ (distinct_remarkWaiting _ _ distinct)
  | waiterJoined p absent room =>
    have new : (p.machine, p.pocket) ∉ s.waitList.map fun e => (e.machine, e.pocket) := by
      intro mem
      obtain ⟨e, listed, is⟩ := List.mem_map.1 mem
      have := List.any_eq_false.1 absent e listed
      simp_all
    unfold WaitersDistinct
    rw [List.map_append]
    refine List.Nodup.append distinct (List.nodup_singleton _) (List.disjoint_singleton.2 ?_)
    exact new
  | entryTaken e next => exact distinct_entryMoved e distinct
  | markTaken e x w next => exact distinct_putMachine _ _ (distinct_entryMoved e distinct)
  | machineStored | pausedSet | profileStored | profileSwitched => exact distinct_putMachine _ _ distinct

theorem change_distinct {s t : State} (changed : Change s t) (distinct : WaitersDistinct s) : WaitersDistinct t := by
  cases changed with
  | line changed => rw [lineChange_frame changed]; exact distinct
  | head changed => rw [headChange_frame changed]; exact distinct
  | capture changed => rw [captureChange_frame changed]; exact distinct
  | record changed => rw [recordChange_frame changed]; exact distinct
  | type changed => rw [typeChange_frame changed]; exact distinct
  | machine changed => exact machineChange_distinct changed distinct
  | lineReset => rw [lineReset_eq]; exact List.nodup_nil
  | countersCleared | sweepEnded | sweepMoved => exact distinct

/-! ## Counted switches (R130 to R134) -/

/-- A pending switch of a machine: to its valid inactive bank, with a marked entry. -/
def Pending (x : MachineDef) (w : ProfileSwitch) : Prop :=
  w.target ≠ x.active ∧ profileValid (profileOf x w.target) = true ∧ 1 ≤ w.marked

/-- `SwitchesCounted` over the readers of the state. -/
def Switches (s : State) : Prop :=
  (∀ e ∈ s.waitList, e.marked = true → ∃ x, machineAt s e.machine = some x ∧ x.switch.isSome = true)
    ∧ ∀ m x w, machineAt s m = some x → x.switch = some w → Pending x w ∧ w.marked = markedFor s m

theorem switchesCounted_iff (s : State) : SwitchesCounted s ↔ Switches s := by
  unfold SwitchesCounted Switches
  refine and_congr ?_ ⟨fun all m x w machine switch => ?_, fun all i => ?_⟩
  · simp only [Option.any_eq_true]
  · unfold machineAt at machine
    split at machine
    next one =>
      obtain ⟨low, rfl⟩ := Vector.getElem?_eq_some_iff.1 machine
      have counted := all ⟨m - 1, low⟩
      have number : m - 1 + 1 = m := by omega
      simp only [Fin.getElem_fin, switch, Option.all_some, Bool.and_eq_true, decide_eq_true_eq, ne_eq, number] at counted
      exact ⟨⟨counted.1.1.1, counted.1.1.2, counted.1.2⟩, counted.2⟩
    next => cases machine
  · rw [Option.all_eq_true]
    intro w switch
    have at_ : machineAt s (i + 1) = some s.machines[i] := by simp [machineAt]
    obtain ⟨⟨other, valid, one⟩, counted⟩ := all (i + 1) _ w at_ switch
    simp only [ne_eq, Bool.and_eq_true, decide_eq_true_eq]
    exact ⟨⟨⟨other, valid⟩, one⟩, counted⟩

/-- One machine stored over a wait list whose other machines keep their marks. -/
theorem switches_put {s u : State} {m : Nat} {x x' : MachineDef} (switches : Switches s) (machine : machineAt s m = some x)
    (same : machineAt u = machineAt s)
    (entries : ∀ e ∈ u.waitList, e.marked = true → e.machine ≠ m → ∃ e' ∈ s.waitList, e'.marked = true ∧ e'.machine = e.machine)
    (mine : ∀ e ∈ u.waitList, e.marked = true → e.machine = m → x'.switch.isSome = true)
    (counts : ∀ k, k ≠ m → markedFor u k = markedFor s k)
    (pending : ∀ w, x'.switch = some w → Pending x' w ∧ w.marked = markedFor u m) : Switches (putMachine m x' u) := by
  obtain ⟨marks, counted⟩ := switches
  have range : 1 ≤ m ∧ m ≤ 31 := by
    unfold machineAt at machine
    split at machine
    next one =>
      obtain ⟨low, -⟩ := Vector.getElem?_eq_some_iff.1 machine
      omega
    next => cases machine
  have at_ : ∀ k, machineAt (putMachine m x' u) k = if k = m then some x' else machineAt s k := by
    intro k
    rw [machineAt_putMachine, same]
    exact if_congr (and_iff_left range) rfl rfl
  have list : (putMachine m x' u).waitList = u.waitList := by rw [putMachine_frame]
  refine ⟨fun e mem marked => ?_, fun k y w machine' switch => ?_⟩
  · rw [list] at mem
    rw [at_]
    split
    next here => exact ⟨x', rfl, mine e mem marked here⟩
    next other =>
      obtain ⟨e', mem', marked', is⟩ := entries e mem marked other
      obtain ⟨y, found, some⟩ := marks e' mem' marked'
      exact ⟨y, by rw [← is]; exact found, some⟩
  · have read : markedFor (putMachine m x' u) k = markedFor u k := by rw [markedFor, list]; rfl
    rw [read]
    rw [at_] at machine'
    split at machine'
    next here => cases machine'; rw [here]; exact pending w switch
    next other => rw [counts k other]; exact counted k y w machine' switch

/-- One machine stored, the wait list as it was. -/
theorem switches_put_alone {s : State} {m : Nat} {x x' : MachineDef} (switches : Switches s) (machine : machineAt s m = some x)
    (mine : ∀ e ∈ s.waitList, e.marked = true → e.machine = m → x'.switch.isSome = true)
    (pending : ∀ w, x'.switch = some w → Pending x' w ∧ w.marked = markedFor s m) : Switches (putMachine m x' s) :=
  switches_put switches machine rfl (fun e mem marked _ => ⟨e, mem, marked, rfl⟩) mine (fun _ _ => rfl) pending

/-- A machine that keeps its switch, its target bank and its active bank. -/
theorem switches_put_same {s : State} {m : Nat} {x x' : MachineDef} (switches : Switches s) (machine : machineAt s m = some x)
    (switch : x'.switch = x.switch) (kept : ∀ w, x.switch = some w → Pending x w → Pending x' w) :
    Switches (putMachine m x' s) := by
  refine switches_put_alone switches machine (fun e mem marked here => ?_) fun w is => ?_
  · obtain ⟨y, found, some⟩ := switches.1 e mem marked
    rw [here, machine] at found
    cases found
    rw [switch]
    exact some
  · rw [switch] at is
    obtain ⟨pending, counted⟩ := switches.2 m x w machine is
    exact ⟨kept w is pending, counted⟩

theorem mem_remarkWaiting {s : State} {m : Nat} {mark : Bool} {e : WaitEntry} (mem : e ∈ (remarkWaiting m mark s).waitList) :
    (e.machine = m → e.marked = mark) ∧ (e.machine ≠ m → e ∈ s.waitList) := by
  obtain ⟨e', listed, is⟩ := List.mem_map.1 mem
  split at is
  next here => subst is; exact ⟨fun _ => rfl, fun other => absurd here other⟩
  next other => subst is; exact ⟨fun here => absurd here other, fun _ => listed⟩

theorem markedFor_remarkWaiting (s : State) (m k : Nat) (mark : Bool) :
    markedFor (remarkWaiting m mark s) k = if k = m then (if mark then waitingFor s m else 0) else markedFor s k := by
  have count : markedFor (remarkWaiting m mark s) k = s.waitList.countP fun e =>
      if e.machine = m then e.machine = k && mark else e.machine = k && e.marked := by
    rw [markedFor, remarkWaiting, List.countP_map]
    congr 1
    funext e
    simp only [Function.comp_apply]
    split <;> rfl
  rw [count]
  split
  next here =>
    subst here
    cases mark with
    | true =>
      rw [if_pos rfl, waitingFor]
      congr 1
      funext e
      by_cases is : e.machine = k <;> simp [is]
    | false =>
      rw [if_neg (by simp), List.countP_eq_zero]
      intro e _
      by_cases is : e.machine = k <;> simp [is]
  next other =>
    rw [markedFor]
    congr 1
    funext e
    by_cases is : e.machine = m
    · simp [is, Ne.symm other]
    · simp [is]

theorem markedFor_entryMoved {s : State} {e : WaitEntry} (listed : e ∈ s.waitList) (k : Nat) :
    markedFor (entryMoved e s) k = markedFor s k - if e.machine = k ∧ e.marked = true then 1 else 0 := by
  rw [markedFor, entryMoved, List.countP_erase]
  simp [listed, markedFor]

/-- The mark of a waiting entry stands for a pending switch of its machine. -/
theorem switch_of_marked {s : State} {e : WaitEntry} (switches : Switches s) (listed : e ∈ s.waitList)
    (marked : e.marked = true) : (machineAt s e.machine).bind (·.switch) ≠ none := by
  obtain ⟨x, found, switched⟩ := switches.1 e listed marked
  rw [found]
  intro gone
  rw [show x.switch = none from gone] at switched
  cases switched

theorem machineChange_switches {s t : State} (changed : MachineChange s t) (switches : Switches s) : Switches t := by
  cases changed with
  | machineStored m x defined magazine push machine => exact switches_put_same switches machine rfl fun w _ pending => pending
  | pausedSet m x p machine => exact switches_put_same switches machine rfl fun w _ pending => pending
  | profileStored m x b content machine short untargeted =>
    have switch : (withProfile x b content).switch = x.switch := by cases b <;> rfl
    have active : (withProfile x b content).active = x.active := by cases b <;> rfl
    refine switches_put_same switches machine switch fun w is pending => ?_
    obtain ⟨other, valid, one⟩ := pending
    have apart : w.target ≠ b := fun here => other (here.trans (untargeted w is here).symm)
    refine ⟨by rw [active]; exact other, ?_, one⟩
    have bank : profileOf (withProfile x b content) w.target = profileOf x w.target := by
      cases b <;> cases target : w.target <;> simp_all [withProfile, profileOf]
    rw [bank]
    exact valid
  | profileCancelled m x machine =>
    have unswitched : ∀ e ∈ (if x.switch.isSome then remarkWaiting m false s else s).waitList,
        e.marked = true → e.machine ≠ m := by
      intro e mem marked here
      split at mem
      next => simp [(mem_remarkWaiting mem).1 here] at marked
      next none =>
        obtain ⟨y, found, some⟩ := switches.1 e mem marked
        rw [here, machine] at found
        cases found
        exact none some
    refine switches_put switches machine (by split <;> rfl) (fun e mem marked other => ?_)
      (fun e mem marked here => absurd here (unswitched e mem marked)) (fun k other => ?_) (by simp)
    · split at mem
      next => exact ⟨e, (mem_remarkWaiting mem).2 other, marked, rfl⟩
      next => exact ⟨e, mem, marked, rfl⟩
    · split
      next => rw [markedFor_remarkWaiting, if_neg other]
      next => rfl
  | profileSwitched m x b machine idle =>
    refine switches_put_alone switches machine (fun e mem _ here => ?_) (by simp)
    have none := List.countP_eq_zero.1 idle e mem
    simp [here] at none
  | profileRequested m x b machine other valid waits =>
    refine switches_put switches machine rfl (fun e mem marked other => ⟨e, (mem_remarkWaiting mem).2 other, marked, rfl⟩)
      (fun _ _ _ _ => rfl) (fun k other => by rw [markedFor_remarkWaiting, if_neg other]) ?_
    rintro w ⟨⟩
    refine ⟨⟨Ne.symm other, by cases b <;> exact valid, Nat.pos_of_ne_zero waits⟩, ?_⟩
    rw [markedFor_remarkWaiting, if_pos rfl, if_pos rfl]
  | waiterJoined p absent room =>
    obtain ⟨marks, counted⟩ := switches
    refine ⟨fun e mem marked => ?_, fun m x w machine switch => ?_⟩
    · rcases List.mem_append.1 mem with old | new
      · exact marks e old marked
      · rw [List.mem_singleton.1 new] at marked
        cases marked
    · have same : markedFor { s with waitList := s.waitList ++ [⟨p.machine, p.pocket, false⟩] } m = markedFor s m := by
        simp [markedFor]
      rw [same]
      exact counted m x w machine switch
  | entryTaken e next plain =>
    obtain ⟨-, listed, -⟩ := nextTake_some next
    have unmarked : e.marked = false := by
      by_contra is
      rw [Bool.not_eq_false] at is
      exact switch_of_marked switches listed is (plain is)
    obtain ⟨marks, counted⟩ := switches
    refine ⟨fun e' mem => marks e' (List.mem_of_mem_erase mem), fun m x w machine switch => ?_⟩
    rw [markedFor_entryMoved listed]
    simpa [unmarked] using counted m x w machine switch
  | markTaken e x w next marked machine switch =>
    obtain ⟨-, listed, -⟩ := nextTake_some next
    obtain ⟨⟨other, valid, one⟩, counted⟩ := switches.2 _ x w machine switch
    have fewer : markedFor (entryMoved e s) e.machine = w.marked - 1 := by
      rw [markedFor_entryMoved listed, ← counted]
      simp [marked]
    refine switches_put (u := entryMoved e s) switches machine rfl
      (fun e' mem marked' _ => ⟨e', List.mem_of_mem_erase mem, marked', rfl⟩) (fun e' mem marked' here => ?_)
      (fun k other => ?_) fun w' is => ?_
    · unfold drained
      split
      next last =>
        have none : markedFor (entryMoved e s) e.machine = 0 := by omega
        have := List.countP_eq_zero.1 none e' mem
        simp [here, marked'] at this
      next => rfl
    · rw [markedFor_entryMoved listed, if_neg fun both => other both.1.symm]
      rfl
    · unfold drained at is ⊢
      split at is
      next => cases is
      next more =>
        cases is
        rw [if_neg more, fewer]
        exact ⟨⟨other, valid, by dsimp only; omega⟩, rfl⟩

theorem change_switches {s t : State} (changed : Change s t) (counted : SwitchesCounted s) : SwitchesCounted t := by
  have switches := (switchesCounted_iff s).1 counted
  refine (switchesCounted_iff t).2 ?_
  cases changed with
  | line changed => rw [lineChange_frame changed]; exact switches
  | head changed => rw [headChange_frame changed]; exact switches
  | capture changed => rw [captureChange_frame changed]; exact switches
  | record changed => rw [recordChange_frame changed]; exact switches
  | type changed => rw [typeChange_frame changed]; exact switches
  | machine changed => exact machineChange_switches changed switches
  | lineReset =>
    rw [lineReset_eq]
    refine ⟨by simp, fun m x w machine switch => ?_⟩
    unfold machineAt at machine
    split at machine
    next =>
      rw [Vector.getElem?_map, Option.map_eq_some_iff] at machine
      obtain ⟨x₀, -, rfl⟩ := machine
      cases switch
    next => cases machine
  | countersCleared | sweepEnded | sweepMoved => exact switches

theorem reset_switches : SwitchesCounted State.reset := by
  refine (switchesCounted_iff _).2 ⟨by simp [State.reset], fun m x w machine switch => ?_⟩
  unfold machineAt at machine
  split at machine
  next =>
    obtain ⟨low, rfl⟩ := Vector.getElem?_eq_some_iff.1 machine
    simp [State.reset, MachineDef.reset] at switch
  next => cases machine

/-- Settles O60: a request joins only when its pair waits nowhere, and marks come and go with their switch. -/
theorem waitersStayCounted : Obligations.WaitersStayCounted := by
  intro s t result
  exact ⟨step_keeps (fun quiet h => by rw [quiet]; exact h) change_distinct List.nodup_nil (fun _ _ _ h => h) result,
    step_keeps (fun quiet h => by rw [quiet]; exact h) change_switches reset_switches (fun _ _ _ h => h) result⟩

end Sys2Proof.Waiters

/-! PROOFS. The queue of waiting commands, the two resets, the pins, and the legality of the initial condition. -/

namespace Sys2Proof.Resets

open Sys2Proof Sys2Proof.Machine Sys2Proof.Transitions

/-- Settles O1: both sides are the two branches of `step`. -/
theorem stepRunsFrontCommand : Obligations.StepRunsFrontCommand := by
  refine ⟨fun i rest s => rfl, fun s empty => ?_⟩
  unfold step
  rw [empty]

theorem afterPinReset_eq (mode : Protection) : afterPinReset mode = if mode = .locked then .locked else .open_ := by
  cases mode <;> rfl

/-- Settles O4: each row's arm is its equation; the pin reset keeps LOCKED by `afterPinReset_eq`. -/
theorem resetsAndPins : Obligations.ResetsAndPins := by
  intro s
  refine ⟨rfl, ?_, rfl, fun level => rfl⟩
  rw [← afterPinReset_eq]
  rfl

theorem reset_counts : CountsInRange State.reset := by
  unfold CountsInRange
  decide

theorem reset_portsBusy : PortsBusy State.reset := by simp [PortsBusy, State.reset]

theorem reset_initialUnderReset : InitialUnderReset State.reset := by
  rintro ⟨⟩

theorem reset_tagsMatch : TagsMatch State.reset := by simp [TagsMatch, State.reset]

theorem reset_typesCounted : TypesCounted State.reset := by simp [TypesCounted, State.reset, TypeRecord.reset]

theorem reset_marksCounted : MarksCounted State.reset := by simp [MarksCounted, State.reset, Sweep.reset]

theorem reset_placesMatch : PlacesMatch State.reset := by simp [PlacesMatch, State.reset]

theorem reset_magazinesHold : MagazinesHold State.reset := by simp [MagazinesHold, State.reset]

theorem reset_presetSound : PresetSound State.reset := by simp [PresetSound, State.reset]

/-- Settles O3: each invariant on the empty tables, the free heads and the idle engines of the initial condition. -/
theorem resetIsLegal : Obligations.ResetIsLegal :=
  ⟨reset_counts, Records.reset_canonical, Ranges.reset_storesLegal, Heads.reset_headsLegal, Records.reset_kept.2,
    reset_tagsMatch, reset_placesMatch, reset_magazinesHold, reset_typesCounted, reset_marksCounted, List.nodup_nil,
    Waiters.reset_switches, reset_portsBusy, reset_initialUnderReset, reset_presetSound⟩

end Sys2Proof.Resets

/-! PROOFS. Management requests: what a refusal, a full answer FIFO and a table write leave, and the requests of
chapter 10 by themselves. -/

namespace Sys2Proof.Requests

open Sys2Proof Sys2Proof.Machine Sys2Proof.Transitions Sys2Proof.ProtectionCheck

/-! ## The table generation (R181) -/

theorem event_generation {s t : State} (event : Event s t) : t.generation = s.generation := by
  cases event with
  | partKept p => cases p <;> rfl
  | worked u _ chain => rw [grants_generation]; exact (changes_fix chain).2.2.2.2
  | answered u a _ _ chain => rw [grants_generation]; exact (changes_fix chain).2.2.2.2
  | _ => rfl

theorem written_generation {s u : State} (written : Written s u) : u.generation = s.generation := by
  cases written with
  | chain chain => exact (changes_fix chain).2.2.2.2
  | window => rfl

theorem wrote_generation {s t : State} (wrote : Wrote s t) : t.generation = (s.generation + 1) % 65536 := by
  obtain ⟨u, a, -, -, written, rfl⟩ := wrote
  rw [grants_generation, ← written_generation written]
  rfl

theorem tableWriting_iff (i : Instr) : tableWriting i = true ↔ ∃ code rt body, listedRequest i = true
    ∧ encodeRequest i = some (code, rt, body) ∧ code ∈ protectedCodes := by
  simp only [tableWriting, Bool.and_eq_true, Option.any_eq_true, decide_eq_true_eq, Prod.exists]
  constructor
  · rintro ⟨listed, code, rt, body, spelled, protected_⟩
    exact ⟨code, rt, body, listed, spelled, protected_⟩
  · rintro ⟨code, rt, body, listed, spelled, protected_⟩
    exact ⟨listed, code, rt, body, spelled, protected_⟩

theorem listedRequest_iff (i : Instr) :
    listedRequest i = true ↔ encodeRequest i ≠ none ∧ ∀ code rt body, i ≠ .unknownRequest code rt body := by
  cases i
  case unknownRequest code rt body =>
    constructor
    · intro listed
      cases listed
    · intro both
      exact absurd rfl (both.2 code rt body)
  all_goals
    constructor
    · intro listed
      exact ⟨Option.isSome_iff_ne_none.1 listed, by simp⟩
    · intro both
      exact Option.isSome_iff_ne_none.2 both.1

/-- A command that writes no table is an event by itself. -/
theorem runs_unwritten {i : Instr} (reads : tableWriting i = false) (power : i ≠ .powerOnReset) (pin : i ≠ .pinReset)
    (frame : ∀ p f, i ≠ .frameArrival p f)
    (unreadable : ∀ code rt body, i = .unknownRequest code rt body → i.wellFormed = true) (s : State) :
    RunsAsEvent i s := by
  cases listed : listedRequest i with
  | true => exact runs_of_openRequest listed reads s
  | false =>
    by_cases unknown : ∃ code rt body, i = .unknownRequest code rt body
    · obtain ⟨code, rt, body, rfl⟩ := unknown
      have none : decodeRequest code rt body = none := by
        have formed := unreadable code rt body rfl
        simp only [Instr.wellFormed, Bool.and_eq_true, Option.isNone_iff_eq_none] at formed
        exact formed.2
      have arm : exec (.unknownRequest code rt body) s = execUnknownRequest code rt body s := rfl
      unfold RunsAsEvent
      rw [arm, execUnknownRequest, none]
      exact ⟨_, rfl, event_openRequest (ownerChanges_of_still fun _ => rfl) code rt s⟩
    · exact runs_of_unlisted listed power pin frame (fun code rt body is => unknown ⟨code, rt, body, is⟩) s

/-- Settles O23: an event leaves the generation, and only a table-writing request can be more than an event. -/
theorem generationTracksTableWrites : Obligations.GenerationTracksTableWrites := by
  refine ⟨fun i => ⟨tableWriting_iff i, listedRequest_iff i⟩, fun s t i power pin frame unreadable result => ⟨?_, ?_⟩⟩
  · intro reads
    obtain ⟨u, runs, event⟩ := runs_unwritten reads power pin frame unreadable s
    rw [runs] at result
    cases result
    exact event_generation event
  · intro writes
    obtain ⟨u, runs, event | wrote⟩ := runs_of_tableWriting writes s
    all_goals rw [runs] at result; cases result
    · exact .inl (event_generation event)
    · exact .inr (wrote_generation wrote)

/-! ## The two paths of a listed request -/

/-- The command is a request with its owner, outside the protection check or behind it. -/
inductive Path (i : Instr) (code rt : Nat) (owner : State → Taken) : Prop
  | open_ (runs : ∀ s, exec i s = .next (openRequest code rt owner s))
  | table (runs : ∀ s, exec i s = .next (tableRequest code rt owner s))

/-! ## Refusals change nothing -/

/-- How an owner ends on a state: with OK, REDUNDANT, a refusal that leaves the state, PROTECTED, or the NO_CHANGE of an
edit. -/
inductive Ends (edit : Bool) (s : State) : Taken → Prop
  | granted (u : State) (body : ReplyBody) (changed : Bool) : Ends edit s ⟨u, .ok, body, changed⟩
  | redundant (u : State) (body : ReplyBody) : Ends edit s (replied u .redundant body)
  | refused (status : Status) (body : ReplyBody) (plain : status ≠ .locked ∧ status ≠ .protected_ := by decide) :
      Ends edit s (replied s status body)
  | guarded (body : ReplyBody) : Ends edit s (replied { s with protectionError := true } .protected_ body)
  | unedited (u : State) (body : ReplyBody) (is : edit = true) : Ends edit s (replied u .noChange body)

/-- An owner that ends in one of these ways on every state. -/
def OwnerEnds (edit : Bool) (owner : State → Taken) : Prop := ∀ s, Ends edit s (owner s)

theorem ends_granted {edit : Bool} (f : State → State) (body : State → ReplyBody) :
    OwnerEnds edit fun s => replied (f s) .ok (body s) := fun s => .granted (f s) (body s) false

theorem ownClearStatus_ends : OwnerEnds false ownClearStatus := by
  intro s
  unfold ownClearStatus
  split
  next => exact .granted _ _ _
  next => exact .refused _ _

theorem ownReadType_ends (t : Nat) : OwnerEnds false (ownReadType t) := by
  intro s
  unfold ownReadType
  split
  next => exact .refused _ _
  next => exact .granted _ _ _

theorem ownReadCal_ends (head bank : Nat) : OwnerEnds false (ownReadCal head bank) := by
  intro s
  unfold ownReadCal
  split
  next => exact .granted _ _ _
  next => exact .refused _ _

theorem ownReadProfile_ends (m bank : Nat) : OwnerEnds false (ownReadProfile m bank) := by
  intro s
  unfold ownReadProfile
  split
  next => exact .granted _ _ _
  next => exact .refused _ _

theorem ownReadPockets_ends (m first count : Nat) : OwnerEnds false (ownReadPockets m first count) := by
  intro s
  unfold ownReadPockets
  split
  next => exact .refused _ _
  next =>
    split
    next => exact .refused _ _
    next => exact .granted _ _ _

theorem ownReadAssemblies_ends (start count : Nat) : OwnerEnds false (ownReadAssemblies start count) := by
  intro s
  unfold ownReadAssemblies
  split
  next => exact .refused _ _
  next => exact .granted _ _ _

theorem ownSetPaused_ends (m : Nat) (paused : Bool) : OwnerEnds false (ownSetPaused m paused) := by
  intro s
  unfold ownSetPaused
  split
  next => exact .refused _ _
  next =>
    split_ifs
    · exact .refused _ _
    · exact .refused _ _
    · exact .granted _ _ _

theorem ownMoveSweep_ends (source target : SweepState) : OwnerEnds false (ownMoveSweep source target) := by
  intro s
  unfold ownMoveSweep
  split
  next => exact .granted _ _ _
  next => exact .refused _ _

theorem ownWriteCal_ends (head bank : Nat) (body : CalBody) : OwnerEnds false (ownWriteCal head bank body) := by
  intro s
  unfold ownWriteCal
  split
  next =>
    dsimp only
    split
    next => exact .refused _ _
    next =>
      split_ifs
      · exact .refused _ _
      · exact .refused _ _
      · exact .refused _ _
      · exact .granted _ _ _
  next => exact .refused _ _

theorem ownSwitchCal_ends (head bank : Nat) : OwnerEnds false (ownSwitchCal head bank) := by
  intro s
  unfold ownSwitchCal
  split
  next =>
    dsimp only
    split
    next => exact .redundant _ _
    next =>
      split
      next => exact .refused _ _
      next =>
        split
        next => exact .granted _ _ _
        next => split <;> exact .granted _ _ _
  next => exact .refused _ _

theorem ownCancelCal_ends (head : Nat) : OwnerEnds false (ownCancelCal head) := by
  intro s
  unfold ownCancelCal
  split
  next =>
    dsimp only
    split
    next => exact .refused _ _
    next => exact .granted _ _ _
  next => exact .refused _ _

theorem ownHeadRestore_ends (head : Nat) : OwnerEnds false (ownHeadRestore head) := by
  intro s
  unfold ownHeadRestore
  split
  next =>
    dsimp only
    split
    next => exact .granted _ _ _
    next => exact .refused _ _
    next => exact .refused _ _
  next => exact .refused _ _

theorem ownDefineMachine_ends (m : Nat) (b : MachineBody) : OwnerEnds false (ownDefineMachine m b) := by
  intro s
  unfold ownDefineMachine
  split
  next => exact .refused _ _
  next =>
    split
    next =>
      split_ifs
      · exact .refused _ _
      · exact .refused _ _
      · exact .refused _ _
      · exact .refused _ _
      · exact .granted _ _ _
    next => exact .refused _ _

theorem ownWriteProfile_ends (m bank : Nat) (body : ProfileBody) : OwnerEnds false (ownWriteProfile m bank body) := by
  intro s
  unfold ownWriteProfile
  split
  next =>
    split
    next => exact .refused _ _
    next =>
      split_ifs
      · exact .refused _ _
      · exact .refused _ _
      · exact .refused _ _
      · exact .granted _ _ _
  next => exact .refused _ _

theorem ownSwitchProfile_ends (m bank : Nat) : OwnerEnds false (ownSwitchProfile m bank) := by
  intro s
  unfold ownSwitchProfile
  split
  next =>
    split
    next => exact .redundant _ _
    next =>
      split
      next => exact .refused _ _
      next => split_ifs <;> exact .granted _ _ _
  next => exact .refused _ _

theorem ownCancelProfile_ends (m : Nat) : OwnerEnds false (ownCancelProfile m) := by
  intro s
  unfold ownCancelProfile
  split
  next => exact .refused _ _
  next =>
    split
    next => exact .refused _ _
    next => exact .granted _ _ _

theorem onAssembly_ends {edit : Bool} {n : Nat} {owner : State → Taken} (ends : OwnerEnds edit owner) :
    OwnerEnds edit (onAssembly n owner) := by
  intro s
  unfold onAssembly
  split_ifs
  · exact .refused _ _
  · exact .guarded _
  · exact ends s

theorem ownCreate_ends (n t : Nat) (tag : Option Tag) : OwnerEnds false (ownCreate n t tag) := by
  refine onAssembly_ends fun s => ?_
  split_ifs
  · exact .refused _ _
  · exact .refused _ _
  · exact .refused _ _
  · exact .granted _ _ _

theorem locationRefusal_plain {s : State} {location : Option Place} {status : Status}
    (refused : locationRefusal s location = some status) : status ≠ .locked ∧ status ≠ .protected_ := by
  unfold locationRefusal at refused
  split at refused
  next => cases refused
  next =>
    split at refused
    next => cases refused; decide
    next =>
      split_ifs at refused
      · cases refused; decide
      · cases refused; decide

theorem ownRestore_ends (n : Nat) (b : RestoreBody) : OwnerEnds false (ownRestore n b) := by
  refine onAssembly_ends fun s => ?_
  dsimp only
  split
  next => exact .refused _ _
  next =>
    split
    next => exact .refused _ _
    next =>
      split_ifs
      · exact .refused _ _
      · exact .refused _ _
      · split
        next status refused => exact .refused _ _ (locationRefusal_plain refused)
        next => exact .refused _ _
      · split
        next status refused => exact .refused _ _ (locationRefusal_plain refused)
        next => exact .granted _ _ _

theorem onEdit_ends {n : Nat} {check : State → Assembly → Option Status} {action : Assembly → State → Taken}
    (plain : ∀ s r status, check s r = some status → status ≠ .locked ∧ status ≠ .protected_)
    (acts : ∀ s u r, Ends true s (action r u)) : OwnerEnds true (onEdit n check action) := by
  refine onAssembly_ends fun s => ?_
  dsimp only
  split
  next => exact .refused _ _
  next r _ =>
    split
    next => exact .refused _ _
    next =>
      split
      next status refused => exact .refused _ _ (plain s r status refused)
      next => exact acts _ _ _

theorem ownChangeType_ends (n t : Nat) : OwnerEnds true (ownChangeType n t) := by
  refine onEdit_ends (fun s r status refused => ?_) fun s u r => ?_
  · split at refused
    next => cases refused
    next => cases refused; decide
  · unfold changeTypeAction
    split
    next => exact .unedited _ _ rfl
    next => exact .granted _ _ _

theorem bindTag_ends (n : Nat) (tag : Tag) : OwnerEnds true (onEdit n (bindTagCheck n tag) (bindTagAction n tag)) := by
  refine onEdit_ends (fun s r status refused => ?_) fun s u r => ?_
  · unfold bindTagCheck at refused
    split_ifs at refused
    · cases refused; decide
    · cases refused; decide
  · unfold bindTagAction
    split
    next => exact .unedited _ _ rfl
    next => exact .granted _ _ _

theorem unbindTag_ends (n : Nat) : OwnerEnds true (onEdit n (fun _ _ => none) (unbindTagAction n)) := by
  refine onEdit_ends (by simp) fun s u r => ?_
  unfold unbindTagAction
  split
  next => exact .unedited _ _ rfl
  next => exact .granted _ _ _

theorem rebuild_ends (n : Nat) :
    OwnerEnds true (onEdit n (fun _ r => if r.state = .retired then none else some .state) (rebuildAction n)) := by
  refine onEdit_ends (fun s r status refused => ?_) fun s u r => .granted _ _ _
  split at refused
  next => cases refused
  next => cases refused; decide

theorem ownDelete_ends (n : Nat) : OwnerEnds false (ownDelete n) := by
  refine onAssembly_ends fun s => ?_
  dsimp only
  split
  next => exact .refused _ _
  next =>
    split
    next => exact .refused _ _
    next => exact .granted _ _ _

theorem ownForceReturn_ends (n : Nat) : OwnerEnds false (ownForceReturn n) := by
  intro s
  unfold ownForceReturn
  split
  next => exact .refused _ _
  next =>
    split
    next => exact .refused _ _
    next =>
      split
      next => exact .refused _ _
      next => exact .granted _ _ _

theorem ownWriteType_ends (t : Nat) (body : TypeBody) : OwnerEnds false (ownWriteType t body) := by
  intro s
  unfold ownWriteType
  split_ifs
  · exact .refused _ _
  · exact .refused _ _
  · dsimp only
    split
    next => exact .refused _ _
    next =>
      split_ifs
      · exact .refused _ _
      · exact .refused _ _
      · exact .granted _ _ _
      · exact .granted _ _ _

theorem ownWriteHolds_ends (w : Nat) (b : HoldBody) : OwnerEnds false (ownWriteHolds w b) := by
  intro s
  unfold ownWriteHolds
  split
  next => exact .refused _ _
  next =>
    split
    next => exact .refused _ _
    next =>
      split
      next => exact .refused _ _
      next => exact .granted _ _ _

theorem ownSeedAudit_ends (value : Nat) : OwnerEnds false (ownSeedAudit value) := by
  intro s
  unfold ownSeedAudit
  split
  next => exact .refused _ _
  next =>
    generalize (if value = 0 then 1 else BitVec.ofNat 15 value : BitVec 15) = v
    dsimp only
    split
    next => exact .refused _ _
    next => exact .granted _ _ _

theorem ownSetProtection_ends (mode : Nat) : OwnerEnds false (ownSetProtection mode) := by
  intro s
  unfold ownSetProtection
  split
  next => exact .refused _ _
  next =>
    split
    next => exact .refused _ _
    next => exact .granted _ _ _

/-- Every listed request runs to an owner that ends in one of these ways; the edits have the code 42h. -/
theorem listed_ends {i : Instr} {code rt : Nat} {bytes : List Byte} (listed : listedRequest i = true)
    (spelled : encodeRequest i = some (code, rt, bytes)) :
    ∃ owner edit, Path i code rt owner ∧ OwnerEnds edit owner ∧ (edit = true → code = 0x42) := by
  cases i
  case identify => cases spelled; exact ⟨_, false, .open_ fun _ => rfl, ends_granted id _, by simp⟩
  case readStatus => cases spelled; exact ⟨_, false, .open_ fun _ => rfl, ends_granted id _, by simp⟩
  case readCounters => cases spelled; exact ⟨_, false, .open_ fun _ => rfl, ends_granted id _, by simp⟩
  case clearCounters => cases spelled; exact ⟨_, false, .open_ fun _ => rfl, ends_granted clearedCounters _, by simp⟩
  case lineReset => cases spelled; exact ⟨_, false, .open_ fun _ => rfl, ends_granted lineReset _, by simp⟩
  case clearStatus => cases spelled; exact ⟨_, false, .open_ fun _ => rfl, ownClearStatus_ends, by simp⟩
  case readType => cases spelled; exact ⟨_, false, .open_ fun _ => rfl, ownReadType_ends _, by simp⟩
  case readCal => cases spelled; exact ⟨_, false, .open_ fun _ => rfl, ownReadCal_ends _ _, by simp⟩
  case readProfile => cases spelled; exact ⟨_, false, .open_ fun _ => rfl, ownReadProfile_ends _ _, by simp⟩
  case readPockets => cases spelled; exact ⟨_, false, .open_ fun _ => rfl, ownReadPockets_ends _ _ _, by simp⟩
  case readAssemblies => cases spelled; exact ⟨_, false, .open_ fun _ => rfl, ownReadAssemblies_ends _ _, by simp⟩
  case pauseHandoff => cases spelled; exact ⟨_, false, .open_ fun _ => rfl, ownSetPaused_ends _ true, by simp⟩
  case resumeHandoff => cases spelled; exact ⟨_, false, .open_ fun _ => rfl, ownSetPaused_ends _ false, by simp⟩
  case sweepSuspend => cases spelled; exact ⟨_, false, .open_ fun _ => rfl, ownMoveSweep_ends _ _, by simp⟩
  case sweepResume => cases spelled; exact ⟨_, false, .open_ fun _ => rfl, ownMoveSweep_ends _ _, by simp⟩
  case writeType => cases spelled; exact ⟨_, false, .table fun _ => rfl, ownWriteType_ends _ _, by simp⟩
  case writeCal => cases spelled; exact ⟨_, false, .table fun _ => rfl, ownWriteCal_ends _ _ _, by simp⟩
  case switchCal => cases spelled; exact ⟨_, false, .table fun _ => rfl, ownSwitchCal_ends _ _, by simp⟩
  case cancelCalSwitch => cases spelled; exact ⟨_, false, .table fun _ => rfl, ownCancelCal_ends _, by simp⟩
  case headRestore => cases spelled; exact ⟨_, false, .table fun _ => rfl, ownHeadRestore_ends _, by simp⟩
  case defineMachine => cases spelled; exact ⟨_, false, .table fun _ => rfl, ownDefineMachine_ends _ _, by simp⟩
  case writeProfile => cases spelled; exact ⟨_, false, .table fun _ => rfl, ownWriteProfile_ends _ _ _, by simp⟩
  case switchProfile => cases spelled; exact ⟨_, false, .table fun _ => rfl, ownSwitchProfile_ends _ _, by simp⟩
  case cancelProfileSwitch => cases spelled; exact ⟨_, false, .table fun _ => rfl, ownCancelProfile_ends _, by simp⟩
  case create => cases spelled; exact ⟨_, false, .table fun _ => rfl, ownCreate_ends _ _ _, by simp⟩
  case restore => cases spelled; exact ⟨_, false, .table fun _ => rfl, ownRestore_ends _ _, by simp⟩
  case changeType => cases spelled; exact ⟨_, true, .table fun _ => rfl, ownChangeType_ends _ _, fun _ => rfl⟩
  case bindTag => cases spelled; exact ⟨_, true, .table fun _ => rfl, bindTag_ends _ _, fun _ => rfl⟩
  case unbindTag => cases spelled; exact ⟨_, true, .table fun _ => rfl, unbindTag_ends _, fun _ => rfl⟩
  case rebuild => cases spelled; exact ⟨_, true, .table fun _ => rfl, rebuild_ends _, fun _ => rfl⟩
  case delete => cases spelled; exact ⟨_, false, .table fun _ => rfl, ownDelete_ends _, by simp⟩
  case forceReturn => cases spelled; exact ⟨_, false, .table fun _ => rfl, ownForceReturn_ends _, by simp⟩
  case writeHolds => cases spelled; exact ⟨_, false, .table fun _ => rfl, ownWriteHolds_ends _ _, by simp⟩
  case seedAudit => cases spelled; exact ⟨_, false, .table fun _ => rfl, ownSeedAudit_ends _, by simp⟩
  case setProtection => cases spelled; exact ⟨_, false, .table fun _ => rfl, ownSetProtection_ends _, by simp⟩
  all_goals cases listed

/-- A reply that was placed on a state with the answers of `s` fixes what it was placed with. -/
theorem reply_inj {s u : State} {code rt code' rt' g : Nat} {status status' : Status} {body body' : ReplyBody}
    (placed : (grants (reply code' rt' status' body' u)).answers = s.answers ++ [.reply code rt status g body]) :
    status' = status ∧ body' = body ∧ u.generation = g := by
  rw [grants_answers, reply_answers] at placed
  have last := List.append_inj_right' placed rfl
  simp only [List.cons.injEq, Answer.reply.injEq] at last
  obtain ⟨⟨-, -, status, generation, body⟩, -⟩ := last
  exact ⟨status, body, generation⟩

/-- What a refusing end leaves: the state, with the protection-error flag after PROTECTED. -/
theorem state_of_refused {edit : Bool} {s : State} {r : Taken} (ends : Ends edit s r) (ok : r.status ≠ .ok)
    (redundant : r.status ≠ .redundant) (changed : ¬(edit = true ∧ r.status = .noChange)) :
    r.changed = false ∧ r.status ≠ .locked
      ∧ r.state = { s with protectionError := s.protectionError || decide (r.status = .protected_) } := by
  cases ends with
  | granted => exact absurd rfl ok
  | redundant => exact absurd rfl redundant
  | refused status body plain =>
    refine ⟨rfl, plain.1, ?_⟩
    have : decide (status = .protected_) = false := by simpa using plain.2
    rw [replied_status, this, Bool.or_false]; rfl
  | guarded => exact ⟨rfl, by simp, by simp⟩
  | unedited u body is => exact absurd ⟨is, rfl⟩ changed

/-- Settles O20: an owner's refusal leaves the state or sets the flag, and the protection check sets the flag. -/
theorem refusalsChangeNothing : Obligations.RefusalsChangeNothing := by
  intro s t i code rt g bytes status body taken listed spelled result answer ok redundant changed
  obtain ⟨owner, edit, path, ends, code42⟩ := listed_ends listed spelled
  have unedited : ∀ other, other = status → ¬(edit = true ∧ other = .noChange) :=
    fun other same both => changed ⟨code42 both.1, same ▸ both.2⟩
  cases path with
  | open_ runs =>
    rw [runs, openRequest_taken _ _ _ _ taken] at result
    cases result
    obtain ⟨rfl, rfl, rfl⟩ := reply_inj answer
    obtain ⟨-, unlocked, left⟩ := state_of_refused (ends _) ok redundant (unedited _ rfl)
    rw [left, decide_eq_false unlocked, Bool.or_false]
    exact ⟨rfl, rfl⟩
  | table runs =>
    rw [runs] at result
    cases passes : protectionPasses s with
    | true =>
      rw [tableRequest_taken _ _ _ _ ⟨taken, passes⟩] at result
      cases result
      obtain ⟨rfl, rfl, rfl⟩ := reply_inj answer
      obtain ⟨kept, unlocked, left⟩ := state_of_refused (ends _) ok redundant (unedited _ rfl)
      rw [kept, left, decide_eq_false unlocked, Bool.or_false]
      exact ⟨rfl, rfl⟩
    | false =>
      rw [tableRequest_refused _ _ _ _ taken passes] at result
      cases result
      obtain ⟨rfl, rfl, rfl⟩ := reply_inj answer
      refine ⟨rfl, ?_⟩
      rw [decide_eq_true rfl, Bool.or_true]
      rfl

/-! ## A full answer FIFO (R175, R99) -/

theorem full_request {code rt : Nat} {i : Instr} {owner : State → Taken} (path : Path i code rt owner) {s : State}
    (released : s.resetPin = false) (full : 8 ≤ s.answers.length) :
    exec i s = .next (grants { heard .crib s with mgmtDropped := tally s.mgmtDropped }) := by
  cases path with
  | open_ runs => rw [runs]; exact congrArg _ (onRequest_full _ s released full)
  | table runs => rw [runs]; exact congrArg _ (onRequest_full _ s released full)

theorem full_listed {i : Instr} (listed : listedRequest i = true) {s : State} (released : s.resetPin = false)
    (full : 8 ≤ s.answers.length) :
    exec i s = .next (grants { heard .crib s with mgmtDropped := tally s.mgmtDropped }) := by
  obtain ⟨⟨code, rt, bytes⟩, spelled⟩ := Option.ne_none_iff_exists'.1 ((listedRequest_iff i).1 listed).1
  obtain ⟨owner, -, path, -⟩ := listed_ends listed spelled
  exact full_request path released full

/-- What a code and a body make of the row UNKNOWN_REQUEST (log 20). -/
theorem exec_unknownRequest_readable {code rt : Nat} {body : List Byte} {i : Instr}
    (spells : decodeRequest code rt body = some i) (s : State) : exec (.unknownRequest code rt body) s = exec i s := by
  have arm : exec (.unknownRequest code rt body) s = execUnknownRequest code rt body s := rfl
  rw [arm, execUnknownRequest, spells]
  exact runRequest_listed (decodeRequest_listed spells) s

theorem exec_unknownRequest_unreadable {code rt : Nat} {body : List Byte} (spells : decodeRequest code rt body = none)
    (s : State) : exec (.unknownRequest code rt body) s
      = .next (openRequest code rt (fun s => replied s (unreadableStatus code) .none) s) := by
  have arm : exec (.unknownRequest code rt body) s = execUnknownRequest code rt body s := rfl
  rw [arm, execUnknownRequest, spells]

theorem full_tag (c : Fin 4) (take : State → State) {s : State} (released : s.resetPin = false)
    (full : 8 ≤ s.answers.length) :
    onTag c take s = grants { heard .crib s with tagDropped := s.tagDropped.set c (tally s.tagDropped[c]) } := by
  unfold onTag
  rw [onArrival_released _ _ _ released]
  have noRoom : answerRoom (heard .crib s) = false := by simp [answerRoom, Config.answerPlaces, full]
  rw [noRoom]
  rfl

/-- Settles O21: each path of a request, and a TAG frame, meets the full FIFO before its owner. -/
theorem fullAnswerFifoDrops : Obligations.FullAnswerFifoDrops := by
  refine ⟨⟨fun n => rfl, fun s => ⟨rfl, rfl, fun a => rfl, Iff.rfl, Iff.rfl⟩⟩, fun s i released full => ⟨?_, ?_⟩⟩
  · rintro (listed | ⟨code, rt, body, rfl⟩)
    · exact full_listed listed released full
    · cases spells : decodeRequest code rt body with
      | some i => rw [exec_unknownRequest_readable spells, full_listed (decodeRequest_listed spells) released full]
      | none => rw [exec_unknownRequest_unreadable spells]; exact congrArg _ (onRequest_full _ s released full)
  · rintro c tag m p (rfl | rfl)
    · exact congrArg _ (full_tag c (takeIssue c tag ⟨m, p⟩) released full)
    · exact congrArg _ (full_tag c (takeReturn c tag) released full)

/-! ## Unreadable requests (R176) -/

theorem decodeRequest_of_wellFormed {code rt : Nat} {body : List Byte}
    (formed : (Instr.unknownRequest code rt body).wellFormed = true) : decodeRequest code rt body = none := by
  simp only [Instr.wellFormed, Bool.and_eq_true, Option.isNone_iff_eq_none] at formed
  exact formed.2

/-- Settles O24: nothing decodes the request, and its owner only replies. -/
theorem unreadableRequestsAreRefused : Obligations.UnreadableRequestsAreRefused := by
  intro s code rt body taken formed
  rw [exec_unknownRequest_unreadable (decodeRequest_of_wellFormed formed),
    openRequest_replied _ _ _ _ _ _ _ taken rfl, reply_heard, unreadableStatus]

/-! ## The flag, the counters and the mode (R179, R180, R183) -/

theorem protection?_eq_some {code : Nat} {mode : Protection} :
    protection? code = some mode ↔ (code = 0 ∧ mode = .open_) ∨ (code = 1 ∧ mode = .keyed) ∨ (code = 2 ∧ mode = .locked) := by
  unfold protection?
  split <;> simp_all [eq_comm]

theorem protection?_eq_none {code : Nat} (above : 2 < code) : protection? code = none := by
  unfold protection?
  split
  case h_4 => rfl
  all_goals omega

theorem ownSetProtection_new {code : Nat} {mode : Protection} {s : State} (is : protection? code = some mode)
    (other : mode ≠ s.protection) :
    ownSetProtection code s = effected { s with protection := mode } (.protection mode) := by
  unfold ownSetProtection
  rw [is]
  exact if_neg other

theorem ownSetProtection_same {code : Nat} {mode : Protection} {s : State} (is : protection? code = some mode)
    (same : mode = s.protection) : ownSetProtection code s = replied s .noChange (.protection mode) := by
  unfold ownSetProtection
  rw [is]
  exact if_pos same

theorem eventCounters_cleared (s : State) : ∀ n ∈ eventCounters (clearedCounters s), n = 0 := by
  have port : ∀ x n, n ∈ portCounters (clearedPort x) → n = 0 := by simp [portCounters, clearedPort, PortState.reset]
  intro n mem
  simp only [eventCounters, List.mem_append] at mem
  rcases mem with ((((mem | mem) | mem) | mem) | mem) | mem
  · exact port _ n mem
  · exact port _ n mem
  · simpa [clearedCounters] using mem
  · simp only [clearedCounters, Vector.toList_map, List.map_map, List.mem_map, Function.comp_apply] at mem
    obtain ⟨-, -, rfl⟩ := mem
    rfl
  · exact (List.mem_replicate.1 mem).2
  · simpa [clearedCounters] using mem

theorem eventCounters_grants (s : State) : eventCounters (grants s) = eventCounters s := by
  rw [grants_frame]; rfl

/-- Settles O18: each owner on the crib frame's arrival, by the cases of the flag and of the mode code. -/
theorem clearsAndProtection : Obligations.ClearsAndProtection := by
  refine fun s rt taken => ⟨fun set => ?_, fun clear => ?_, ?_,
    fun passes => ⟨fun code mode is => ⟨fun other => ?_, fun same => ?_⟩, fun code above => ?_⟩⟩
  · have own : ownClearStatus (heard .crib s) = replied { heard .crib s with protectionError := false } .ok .none :=
      if_pos set
    exact congrArg _ (openRequest_replied _ _ _ _ _ _ _ taken own)
  · have own : ownClearStatus (heard .crib s) = replied (heard .crib s) .noChange .none := if_neg (by simpa using clear)
    exact congrArg _ (openRequest_replied _ _ _ _ _ _ _ taken own)
  · have replies := openRequest_taken 0x05 rt (fun s => replied (clearedCounters s) .ok .none) s taken
    refine ⟨_, congrArg Host.Outcome.next replies, ?_, ?_, ?_⟩
    · rw [eventCounters_grants]
      exact eventCounters_cleared _
    · rw [grants_answers]; rfl
    · rw [grants_frame]; rfl
  · have own := ownSetProtection_new (s := heard .crib s) (protection?_eq_some.2 is) other
    exact congrArg _ (tableRequest_effected _ _ _ _ _ _ ⟨taken, passes⟩ own)
  · have own := ownSetProtection_same (s := heard .crib s) (protection?_eq_some.2 is) same
    exact congrArg _ (tableRequest_replied _ _ _ _ _ _ _ ⟨taken, passes⟩ own)
  · have own : ownSetProtection code (heard .crib s) = replied (heard .crib s) .invalidTable (.protection s.protection) := by
      unfold ownSetProtection
      rw [protection?_eq_none above]
      rfl
    exact congrArg _ (tableRequest_replied _ _ _ _ _ _ _ ⟨taken, passes⟩ own)

/-! ## The line reset (R184) -/

theorem setState_assemblies {s u : State} (same : s.assemblies = u.assemblies) (n : Nat) (p : AsmState) :
    (setState n p s).assemblies = (setState n p u).assemblies := by
  have record : recordAt s n = recordAt u n := by unfold recordAt; rw [same]
  unfold setState
  rw [record]
  cases recordAt u n with
  | none => exact same
  | some r => exact congrArg (tableSet · n { r with state := p }) same

/-- What the aborts leave of an assembly that one ARMED slot alone names. -/
theorem recordAt_aborted {s : State} {h : Fin 4} {n : Nat} {p : AsmState} (hold : Records.held s h = some (n, p))
    (only : ∀ k, armedOn s k = some n → k = h) :
    recordAt (s.heads.toList.foldl abortForReset s) n = (recordAt s n).map fun r => { r with state := p } := by
  have agree : ∀ y ∈ s.heads.toList, ∀ q, Heads.holding y = some (n, q) → q = p := by
    intro y mem q named
    obtain ⟨k, rfl⟩ := Records.mem_heads_iff.1 mem
    obtain rfl := only k (Records.armedOn_iff.2 ⟨q, named⟩)
    have same : some (n, q) = some (n, p) := named.symm.trans hold
    cases same
    rfl
  rcases Records.recordAt_foldl_agreed agree s with ⟨-, free⟩ | aborted
  · exact absurd hold (free _ (Records.mem_heads_iff.2 ⟨h, rfl⟩) p)
  · exact aborted

theorem recordAt_unnamed {s : State} {n : Nat} (free : ∀ h, armedOn s h ≠ some n) :
    recordAt (s.heads.toList.foldl abortForReset s) n = recordAt s n := by
  refine Records.recordAt_foldl_free (fun y mem p named => ?_) s
  obtain ⟨k, rfl⟩ := Records.mem_heads_iff.1 mem
  exact free k (Records.armedOn_iff.2 ⟨p, named⟩)

/-- The aborts read and write the records alone. -/
theorem foldl_abortForReset_assemblies (heads : List Head) {s u : State} (same : s.assemblies = u.assemblies) :
    (heads.foldl abortForReset s).assemblies = (heads.foldl abortForReset u).assemblies := by
  induction heads generalizing s u with
  | nil => exact same
  | cons x rest ih =>
    refine ih ?_
    unfold abortForReset
    split
    next => rw [setState_assemblies same]
    all_goals next => exact same

/-- Settles O25: the aborts give the record its capture's prior state, and the emptied FIFOs grant the reply. -/
theorem lineResetEndsWorkInProgress : Obligations.LineResetEndsWorkInProgress := by
  refine ⟨fun s n => ⟨fun h c r armed names only record => ?_, recordAt_unnamed⟩, fun s rt taken => ?_⟩
  · subst names
    have aborted := recordAt_aborted (Records.held_armed armed) only
    rw [record] at aborted
    exact aborted
  · have replies := openRequest_taken 0x71 rt (fun s => replied (lineReset s) .ok .none) s taken
    refine (congrArg _ replies).trans ?_
    dsimp only [replied]
    rw [lineReset_eq, foldl_abortForReset_assemblies _ (s := heard .crib s) (u := s) rfl]
    rfl

end Sys2Proof.Requests

/-! PROOFS. What the part sends: the encodings of R159, the codes of section 9.3, the layouts of answers, replies,
notices and tool data, the Notice Queue and the two arbiters. -/

namespace Sys2Proof.Bytes

open Sys2Proof Sys2Proof.Machine Sys2Proof.Transitions

/-! ## The encodings of R159 -/

theorem putU8_eq_iff {n m : Nat} : putU8 n = putU8 m ↔ n % 256 = m % 256 := by
  simp [putU8, ← BitVec.toNat_inj]

theorem putU8_toNat (b : Byte) : putU8 b.toNat = [b] := by simp [putU8]

theorem wordBytes_eq (w : BitVec 32) : wordBytes w = putU16 (w.toNat / 65536) ++ putU16 w.toNat := by
  have byte : ∀ k, w.extractLsb' k 8 = BitVec.ofNat 8 (w.toNat / 2 ^ k) := fun k => by
    simp [BitVec.extractLsb', Nat.shiftRight_eq_div_pow]
  simp only [wordBytes, byte, putU16, Nat.div_div_eq_div_mul, List.cons_append, List.nil_append]
  norm_num

theorem putI32_eq (x : Int) :
    putI32 x = putU16 ((x % 4294967296).toNat / 65536) ++ putU16 (x % 4294967296).toNat := by
  rw [putI32, wordBytes_eq, BitVec.toNat_ofInt]
  rfl

theorem putTag_eq (t : Tag) : putTag t = putI32 (t.toNat / 4294967296 : Nat) ++ putI32 t.toNat := by
  have high : t.extractLsb' 32 32 = BitVec.ofInt 32 (t.toNat / 4294967296 : Nat) := by
    rw [BitVec.ofInt_natCast]
    simp [BitVec.extractLsb', Nat.shiftRight_eq_div_pow]
  have low : t.extractLsb' 0 32 = BitVec.ofInt 32 t.toNat := by
    rw [BitVec.ofInt_natCast]
    simp [BitVec.extractLsb']
  rw [putTag, high, low]
  rfl

theorem putBool_eq (b : Bool) : putBool b = putU8 (if b then 1 else 0) := by cases b <;> rfl

theorem putList_eq {α : Type} (put : α → List Byte) (xs : List α) : putList put xs = putU8 xs.length ++ xs.flatMap put := rfl

theorem buildFrame_eq (dstSeg srcSeg : Port) (dst src kind : Nat) (payload : List Byte) :
    let flag := fun p : Port => if p = .hall then 128 else 0
    let covered := putU8 (flag dstSeg + dst) ++ putU8 (flag srcSeg + src) ++ putU8 kind ++ putU8 payload.length ++ payload
    buildFrame dstSeg dst srcSeg src kind payload = 0xA5 :: covered ++ checkField covered := by
  cases dstSeg <;> cases srcSeg <;> rfl

/-! ## Answers (section 9.3) -/

theorem length_putTag (t : Tag) : (putTag t).length = 8 := rfl

theorem length_putIssueAnswer (a : IssueAnswer) : (putIssueAnswer a).length = 27 := by
  simp only [putIssueAnswer, List.length_append, length_putTag]
  rfl

/-- The presence byte adds the weights of the fields that stand. -/
theorem presence_eq (b₀ b₁ b₂ b₃ b₄ b₅ b₆ b₇ : Bool) :
    let weight := fun (w : Nat) (holds : Bool) => if holds then w else 0
    presence [b₀, b₁, b₂, b₃, b₄, b₅, b₆, b₇] = weight 1 b₀ + weight 2 b₁ + weight 4 b₂ + weight 8 b₃ + weight 16 b₄
      + weight 32 b₅ + weight 64 b₆ + weight 128 b₇ := by
  have bit : ∀ (w : Nat) (b : Bool), (if b then w else 0) = w * b.toNat := by
    intro w b
    cases b <;> simp
  simp only [presence, List.foldr, bit]
  omega

theorem answerFrame_issueAnswer (c : Fin 4) (a : IssueAnswer) :
    answerFrame (.issueAnswer c a) = buildFrame .crib (6 + c) .crib 0 0x03 (putIssueAnswer a) := by
  rw [Nat.add_comm]
  rfl

/-! ## Tool data (R145) -/

/-- The flag byte and the value of a sent slot. -/
theorem putSentSlot_eq (y : SentSlot) :
    putSentSlot y = putU8 (y.width % 16 + (if y.saturated then 16 else 0) + (if y.blank then 32 else 0)
      + (if y.absent then 64 else 0)) ++ putI32 y.value := by
  have bit : ∀ (w : Nat) (b : Bool), (if b then w else 0) = w * b.toNat := by
    intro w b
    cases b <;> simp
  simp only [putSentSlot, bit]

/-- The tool-data payload of a handoff frame's pocket with a status, an assembly, a bank and slots. -/
def toolPayload (pocket status assembly bank : Nat) (slots : List SentSlot) : List Byte :=
  putU8 pocket ++ putU8 status ++ putU16 assembly ++ putU8 bank ++ putU8 slots.length ++ slots.flatMap putSentSlot

theorem putToolData_cases (f : HandoffFrame) :
    (f.content = .empty → putToolData f = toolPayload f.pocket 0 0 0 [])
      ∧ (f.content = .noProfile → putToolData f = toolPayload f.pocket 1 0 0 [])
      ∧ (∀ n bank slots, f.content = .locked n bank slots → putToolData f = toolPayload f.pocket 2 n (bankCode bank) slots)
      ∧ ∀ n bank slots, f.content = .served n bank slots → putToolData f = toolPayload f.pocket 3 n (bankCode bank) slots := by
  unfold putToolData
  refine ⟨fun is => ?_, fun is => ?_, fun n bank slots is => ?_, fun n bank slots is => ?_⟩
  all_goals rw [is]; rfl

/-! ## The arbiters (R170, R171) -/

theorem grantCrib_sending {s : State} (busy : s.cribEgress.sending ≠ none) : grantCrib s = s :=
  if_pos (Option.isSome_iff_ne_none.2 busy)

theorem grantHall_sending {s : State} (busy : s.hallEgress.sending ≠ none) : grantHall s = s :=
  if_pos (Option.isSome_iff_ne_none.2 busy)

theorem grantCrib_search {s : State} (free : s.cribEgress.sending = none) :
    grantCrib s = (searchCrib s s.cribEgress.pointer).elim s fun found =>
      { s with cribEgress := { sending := some found, pointer := nextCribSource found.1 } } := by
  unfold grantCrib
  rw [free, if_neg (by simp)]
  cases searchCrib s s.cribEgress.pointer <;> rfl

theorem grantHall_search {s : State} (free : s.hallEgress.sending = none) :
    grantHall s = (searchHall s s.hallEgress.pointer).elim s fun found =>
      { s with hallEgress := { sending := some found, pointer := nextHallSource found.1 } } := by
  unfold grantHall
  rw [free, if_neg (by simp)]
  cases searchHall s s.hallEgress.pointer <;> rfl

theorem cribFront_empty {s : State} (transit : s.cribTransit = []) (answers : s.answers = []) (notices : s.notices = [])
    (src : CribSource) : cribFront s src = none := by
  cases src
  case transit => simp [cribFront, transit]
  case answer => simp [cribFront, answers]
  case notice => simp [cribFront, notices]

theorem hallFront_empty {s : State} (transit : s.hallTransit = []) (handoff : s.handoff = []) (src : HallSource) :
    hallFront s src = none := by
  cases src
  case transit => simp [hallFront, transit]
  case handoff => simp [hallFront, handoff]

theorem grantCrib_empty {s : State} (transit : s.cribTransit = []) (answers : s.answers = []) (notices : s.notices = []) :
    grantCrib s = s := by
  cases busy : s.cribEgress.sending with
  | some x => exact grantCrib_sending (by simp [busy])
  | none =>
    rw [grantCrib_search busy]
    have nothing : searchCrib s s.cribEgress.pointer = none := by
      simp [searchCrib, cribFront_empty transit answers notices]
    rw [nothing]
    rfl

theorem grantHall_empty {s : State} (transit : s.hallTransit = []) (handoff : s.handoff = []) : grantHall s = s := by
  cases busy : s.hallEgress.sending with
  | some x => exact grantHall_sending (by simp [busy])
  | none =>
    rw [grantHall_search busy]
    have nothing : searchHall s s.hallEgress.pointer = none := by
      simp [searchHall, hallFront_empty transit handoff]
    rw [nothing]
    rfl

/-- The search stops at the first of the three sources that holds a frame. -/
theorem searchCrib_first {s : State} {src : CribSource} {f : Frame} {p : CribSource} (front : cribFront s src = some f)
    (first : src = p ∨ (cribFront s p = none ∧ src = nextCribSource p)
      ∨ (cribFront s p = none ∧ cribFront s (nextCribSource p) = none ∧ src = nextCribSource (nextCribSource p))) :
    searchCrib s p = some (src, f) := by
  unfold searchCrib
  rcases first with rfl | ⟨none₁, rfl⟩ | ⟨none₁, none₂, rfl⟩
  · simp [front]
  · simp [front, none₁]
  · simp [front, none₁, none₂]

theorem searchHall_first {s : State} {src : HallSource} {f : Frame} {p : HallSource} (front : hallFront s src = some f)
    (first : src = p ∨ (hallFront s p = none ∧ src = nextHallSource p)) : searchHall s p = some (src, f) := by
  unfold searchHall
  rcases first with rfl | ⟨none₁, rfl⟩
  · simp [front]
  · simp [front, none₁]

theorem grantCrib_first {s : State} {src : CribSource} {f : Frame} (free : s.cribEgress.sending = none)
    (search : searchCrib s s.cribEgress.pointer = some (src, f)) :
    grantCrib s = { s with cribEgress := { sending := some (src, f), pointer := nextCribSource src } } := by
  rw [grantCrib_search free, search]
  rfl

theorem grantHall_first {s : State} {src : HallSource} {f : Frame} (free : s.hallEgress.sending = none)
    (search : searchHall s s.hallEgress.pointer = some (src, f)) :
    grantHall s = { s with hallEgress := { sending := some (src, f), pointer := nextHallSource src } } := by
  rw [grantHall_search free, search]
  rfl

/-- Settles O14: the search of each arbiter, and the bytes of each originated frame by its layout. -/
theorem grantFollowsThePointer : Obligations.GrantFollowsThePointer := by
  refine ⟨fun s => ⟨grantCrib_sending, grantCrib_empty,
      fun src f free front first => grantCrib_first free (searchCrib_first front first), grantHall_sending, grantHall_empty,
      fun src f free front first => grantHall_first free (searchHall_first front first), rfl, rfl, rfl, rfl, rfl, rfl⟩,
    ⟨rfl, rfl, rfl, rfl, rfl⟩,
    ⟨fun _ => rfl, fun _ => rfl, putI32_eq, putTag_eq, putBool_eq, fun _ => rfl, fun _ _ _ _ => ⟨rfl, rfl⟩,
      fun _ _ _ => rfl⟩,
    buildFrame_eq, ⟨rfl, rfl, rfl, rfl, rfl, rfl⟩, fun c a => ?_, fun _ _ _ _ _ => rfl, ?_, fun _ => rfl, fun f => ?_⟩
  · dsimp only
    rw [← presence_eq]
    exact ⟨length_putIssueAnswer a, answerFrame_issueAnswer c a⟩
  · exact ⟨rfl, fun _ => rfl, fun _ => rfl, fun _ _ => rfl, fun _ => rfl, fun _ => rfl, fun _ _ _ => rfl, fun _ => rfl,
      fun _ _ _ _ _ _ => rfl, fun _ _ _ _ _ => rfl, fun _ => rfl, fun _ _ => rfl, fun _ _ => rfl, fun _ => rfl,
      fun _ => rfl, fun _ _ => rfl, fun _ _ _ => rfl, fun _ _ => rfl, fun _ => rfl, fun _ => rfl, fun _ _ _ => rfl,
      fun _ _ _ => rfl⟩
  · dsimp only
    simp only [← putSentSlot_eq]
    obtain ⟨empty, noProfile, locked, served⟩ := putToolData_cases f
    exact ⟨fun is => congrArg _ (empty is), fun is => congrArg _ (noProfile is),
      fun n bank slots is => congrArg _ (locked n bank slots is), fun n bank slots is => congrArg _ (served n bank slots is)⟩

/-! ## The Notice Queue (R186) -/

theorem notify_enters {s : State} (room : s.notices.length < 24) (body : NoticeBody) :
    notify body s = { s with notices := s.notices ++ [⟨s.discardedNotices, body⟩], discardedNotices := 0 } := if_pos room

theorem notify_discards {s : State} (full : 24 ≤ s.notices.length) (body : NoticeBody) :
    notify body s = { s with discardedNotices := min (s.discardedNotices + 1) 255 } := if_neg (Nat.not_lt.2 full)

/-- Settles O16: the two branches of `notify`, the second by its limit, and the layout of each notice. -/
theorem noticeEntersOrIsCounted : Obligations.NoticeEntersOrIsCounted := by
  refine ⟨fun s body => ⟨fun room => notify_enters room body, fun full below => ?_, fun full top => ?_⟩,
    ⟨rfl, rfl, rfl, rfl, rfl, fun _ => rfl, rfl, rfl⟩,
    fun _ _ _ _ _ _ _ _ _ _ => rfl, fun _ _ _ _ _ _ _ => rfl, fun _ _ _ _ _ _ _ => rfl, fun _ _ _ _ _ _ _ _ => rfl,
    fun _ _ _ ended _ => ?_, fun _ _ _ _ _ => rfl, fun _ _ => rfl, fun _ _ _ => rfl, fun _ _ => rfl,
    fun _ _ _ _ _ counter => ?_, fun _ _ _ _ _ _ _ _ _ _ _ => rfl, fun _ _ _ _ _ _ _ _ => rfl,
    fun _ _ _ _ _ _ _ _ => rfl, fun _ _ _ _ => rfl⟩
  · rw [notify_discards full, Nat.min_eq_left below]
  · have stays : min (s.discardedNotices + 1) 255 = s.discardedNotices := by omega
    rw [notify_discards full, stays]
  · cases ended <;> rfl
  · cases counter <;> rfl

end Sys2Proof.Bytes

/-! PROOFS. Chapter 9 on the line: transit between the segments, the guard, and the completion of a transmission. -/

namespace Sys2Proof.Line

open Sys2Proof Sys2Proof.Machine Sys2Proof.Transitions

/-! ## Transit (R166) -/

theorem enterTransit_room {p : Port} {s : State} (room : (transitToward s p).length < 8) (f : Frame) :
    enterTransit p f s = pushTransit p f s := if_pos room

theorem enterTransit_full {p : Port} {s : State} (full : 8 ≤ (transitToward s p).length) (f : Frame) :
    enterTransit p f s = dropTransit p s := if_neg (Nat.not_lt.2 full)

theorem exec_general (p : Port) (dst src : Nat) (payload : List Byte) {s : State} (released : s.resetPin = false) :
    exec (.general p dst src payload) s = .next (grants (enterTransit p (generalFrame p dst src payload) (heard p s))) :=
  congrArg Host.Outcome.next (onArrival_released p _ s released)

/-- Settles O11: a frame enters the FIFO toward the other segment, or is dropped, by the FIFO's length. -/
theorem generalEntersOrIsDropped : Obligations.GeneralEntersOrIsDropped := by
  refine fun s dst src payload released => ⟨fun room => ?_, fun room => ?_, fun full => ?_, fun full => ?_⟩
  · rw [exec_general _ _ _ _ released, enterTransit_room (p := .crib) (s := heard .crib s) room]; rfl
  · rw [exec_general _ _ _ _ released, enterTransit_room (p := .hall) (s := heard .hall s) room]; rfl
  · rw [exec_general _ _ _ _ released, enterTransit_full (p := .crib) (s := heard .crib s) full]; rfl
  · rw [exec_general _ _ _ _ released, enterTransit_full (p := .hall) (s := heard .hall s) full]; rfl

/-! ## The guard (R167, R168) -/

theorem toolStatus?_eq_some {code : Nat} {status : ToolStatus} :
    toolStatus? code = some status ↔ toolStatusCode status = code := by
  constructor
  · intro is
    unfold toolStatus? at is
    split at is <;> cases is <;> rfl
  · rintro rfl
    cases status <;> rfl

theorem toolStatusCode_le (status : ToolStatus) : toolStatusCode status ≤ 3 := by cases status <;> decide

/-- The payload check reads six bytes, each within its range, and slots of five bytes. -/
theorem guardView?_eq_some {payload : List Byte} {v : GuardView} :
    guardView? payload = some v ↔ ∃ pocket status hi lo bank slots rest,
      payload = pocket :: status :: hi :: lo :: bank :: slots :: rest ∧ v.pocket = pocket.toNat
        ∧ toolStatusCode v.status = status.toNat ∧ v.assembly = hi.toNat * 256 + lo.toNat
        ∧ status.toNat ≤ 3 ∧ 1 ≤ v.pocket ∧ v.pocket ≤ 240 ∧ v.assembly ≤ 1023 ∧ bank.toNat ≤ 1
        ∧ slots.toNat ≤ 12 ∧ payload.length = 6 + 5 * slots.toNat := by
  constructor
  · intro is
    match payload with
    | pocket :: status :: hi :: lo :: bank :: slots :: rest =>
      simp only [guardView?, getU8, getU16, Option.bind_eq_bind, Option.bind_some, Option.bind_eq_some_iff] at is
      obtain ⟨code, named, is⟩ := is
      split at is
      next ranges =>
        cases is
        obtain ⟨low, high, number, banks, count, length⟩ := ranges
        have named := toolStatus?_eq_some.1 named
        exact ⟨pocket, status, hi, lo, bank, slots, rest, rfl, rfl, named, rfl, named ▸ toolStatusCode_le code, low, high,
          number, banks, count, length⟩
      next => cases is
  · rintro ⟨pocket, status, hi, lo, bank, slots, rest, rfl, place, code, number, -, low, high, range, banks, count, length⟩
    obtain ⟨p, st, n⟩ := v
    dsimp only at place code number low high range
    subst place number
    simp only [guardView?, getU8, getU16, Option.bind_eq_bind, Option.bind_some, toolStatus?_eq_some.2 code]
    exact if_pos ⟨low, high, range, banks, count, length⟩

theorem exec_toolData (m src : Nat) (payload : List Byte) {s : State} (released : s.resetPin = false) :
    exec (.toolData m src payload) s = .next (grants (guardToolData m src payload (heard .crib s))) :=
  congrArg Host.Outcome.next (onArrival_released .crib _ s released)

theorem guardToolData_malformed {payload : List Byte} (unread : guardView? payload = none) (m src : Nat) (s : State) :
    guardToolData m src payload s = countLine .crib .malformed s := by
  unfold guardToolData
  rw [unread]

theorem guardToolData_passed {payload : List Byte} {v : GuardView} (read : guardView? payload = some v) {m : Nat}
    {s : State} (passes : guardBlock s m v = none) (src : Nat) :
    guardToolData m src payload s = enterTransit .crib (toolDataFrame m src payload) s := by
  unfold guardToolData
  rw [read]
  dsimp only
  rw [passes]

theorem guardToolData_blocked {payload : List Byte} {v : GuardView} (read : guardView? payload = some v) {m : Nat}
    {s : State} {reason : BlockReason} (blocks : guardBlock s m v = some reason) (src : Nat) :
    guardToolData m src payload s = blockTransit m src v reason s := by
  unfold guardToolData
  rw [read]
  dsimp only
  rw [blocks]

theorem blockNotice_eq (s : State) (m src : Nat) (v : GuardView) (reason : BlockReason) :
    blockNotice s m src v reason = .transitBlocked src m v.pocket (toolStatusCode v.status)
      (if v.status = .served ∨ v.status = .locked then some v.assembly else none) (occupant s ⟨m, v.pocket⟩)
      (((occupant s ⟨m, v.pocket⟩).bind (recordAt s)).map (·.state)) reason := by
  unfold blockNotice
  cases v.status <;> rfl

/-- The decision of R167 passes the frames that agree with the pocket. -/
theorem guardBlock_passes {s : State} {m : Nat} {v : GuardView}
    (passes : (v.status = .served ∧ occupant s ⟨m, v.pocket⟩ = some v.assembly
        ∧ (recordAt s v.assembly).any (fun r => r.state = .withdrawn) = false)
      ∨ (v.status = .locked ∧ occupant s ⟨m, v.pocket⟩ = some v.assembly)
      ∨ (v.status = .empty ∧ occupant s ⟨m, v.pocket⟩ = none)) : guardBlock s m v = none := by
  unfold guardBlock
  rcases passes with ⟨served, here, sound⟩ | ⟨locked, here⟩ | ⟨empty, here⟩
  · rw [served]; simp [here, sound]
  · rw [locked]; simp [here]
  · rw [empty]; simp [here]

theorem guardBlock_elsewhere {s : State} {m : Nat} {v : GuardView} (carries : v.status = .served ∨ v.status = .locked)
    (elsewhere : occupant s ⟨m, v.pocket⟩ ≠ some v.assembly) : guardBlock s m v = some .notAtPocket := by
  unfold guardBlock
  rcases carries with is | is
  all_goals rw [is]; exact if_pos elsewhere

theorem guardBlock_withdrawn {s : State} {m : Nat} {v : GuardView} (served : v.status = .served)
    (here : occupant s ⟨m, v.pocket⟩ = some v.assembly)
    (withdrawn : (recordAt s v.assembly).any (fun r => r.state = .withdrawn) = true) :
    guardBlock s m v = some .withdrawnNotLocked := by
  unfold guardBlock
  rw [served]
  simp [here, withdrawn]

theorem guardBlock_occupied {s : State} {m : Nat} {v : GuardView} (empty : v.status = .empty)
    (here : occupant s ⟨m, v.pocket⟩ ≠ none) : guardBlock s m v = some .pocketNotEmpty := by
  unfold guardBlock
  rw [empty]
  exact if_pos (Option.isSome_iff_ne_none.2 here)

theorem guardBlock_noProfile {s : State} {m : Nat} {v : GuardView} (is : v.status = .noProfile) :
    guardBlock s m v = some .statusRefused := by
  unfold guardBlock
  rw [is]

/-- A frame that the guard blocks, as the guard's notice reports it. -/
theorem exec_toolData_blocked {m src : Nat} {payload : List Byte} {s : State} {v : GuardView} {reason : BlockReason}
    (released : s.resetPin = false) (read : guardView? payload = some v)
    (blocks : guardBlock (heard .crib s) m v = some reason) :
    exec (.toolData m src payload) s = .next (grants (notify
      (.transitBlocked src m v.pocket (toolStatusCode v.status)
        (if v.status = .served ∨ v.status = .locked then some v.assembly else none) (occupant s ⟨m, v.pocket⟩)
        (((occupant s ⟨m, v.pocket⟩).bind (recordAt s)).map (·.state)) reason)
      { heard .crib s with guardBlocked := tally s.guardBlocked })) := by
  rw [exec_toolData _ _ _ released, guardToolData_blocked read blocks, blockTransit, blockNotice_eq]
  rfl

/-- Settles O12: the payload check, then each branch of the guard's decision. -/
theorem guardPassesOrBlocks : Obligations.GuardPassesOrBlocks := by
  refine ⟨fun payload v => guardView?_eq_some, rfl, fun s m src payload released => ⟨fun unread => ?_, fun v read =>
    ⟨fun passes room => ?_, fun passes full => ?_, fun carries elsewhere => ?_, fun served here withdrawn => ?_,
      fun empty here => ?_, fun is => ?_⟩⟩⟩
  · rw [exec_toolData _ _ _ released, guardToolData_malformed unread]
    rfl
  · rw [exec_toolData _ _ _ released, guardToolData_passed read (guardBlock_passes (s := heard .crib s) passes),
      enterTransit_room (p := .crib) (s := heard .crib s) room]
    rfl
  · rw [exec_toolData _ _ _ released, guardToolData_passed read (guardBlock_passes (s := heard .crib s) passes),
      enterTransit_full (p := .crib) (s := heard .crib s) full]
    rfl
  · exact exec_toolData_blocked released read (guardBlock_elsewhere (s := heard .crib s) carries elsewhere)
  · exact exec_toolData_blocked released read (guardBlock_withdrawn (s := heard .crib s) served here withdrawn)
  · exact exec_toolData_blocked released read (guardBlock_occupied (s := heard .crib s) empty here)
  · exact exec_toolData_blocked released read (guardBlock_noProfile is)

/-! ## Completion (R172, R146) -/

theorem exec_completion_crib {s : State} {src : CribSource} {f : Frame} (sends : s.cribEgress.sending = some (src, f)) :
    exec (.transmissionCompletion .crib) s = .next (grants (completeCrib src s)) := by
  refine congrArg Host.Outcome.next (a₁ := completeOn .crib s) ?_
  simp only [completeOn, sends]

theorem exec_completion_hall {s : State} {src : HallSource} {f : Frame} (sends : s.hallEgress.sending = some (src, f)) :
    exec (.transmissionCompletion .hall) s = .next (grants (completeHall src s)) := by
  refine congrArg Host.Outcome.next (a₁ := completeOn .hall s) ?_
  simp only [completeOn, sends]

/-- The state of a hall completion whose frame is the formatter's own, before the formatter acts. -/
theorem completeHall_handoff {s : State} {front : HandoffFrame} {rest : List HandoffFrame} (queue : s.handoff = front :: rest) :
    completeHall .handoff s
      = enterService front { s with handoff := rest, hallEgress := { s.hallEgress with sending := none } } := by
  simp only [completeHall, queue]

theorem enterService_served {f : HandoffFrame} {s : State} {n : Nat} {bank : Bank} {slots : List SentSlot} {r : Assembly}
    (served : f.content = .served n bank slots) (valid : f.void = false) (record : recordAt s n = some r)
    (issued : r.state = .issued) (place : r.location = some ⟨f.machine, f.pocket⟩) :
    enterService f s = putAssembly n { r with state := .inService } s := by
  simp only [enterService, served, valid, record]
  exact if_pos ⟨issued, place⟩

/-- A frame that is no unvoided SERVED frame of an assembly ISSUED at its place changes no assembly. -/
theorem enterService_other {f : HandoffFrame} {s : State}
    (other : ∀ n bank slots r, f.content = .served n bank slots → recordAt s n = some r →
      f.void = true ∨ r.state ≠ .issued ∨ r.location ≠ some ⟨f.machine, f.pocket⟩) : enterService f s = s := by
  unfold enterService
  split
  next n bank slots served valid =>
    split
    next => rfl
    next r record =>
      refine if_neg fun ⟨issued, place⟩ => ?_
      rcases other n bank slots r served record with void | unissued | elsewhere
      · rw [valid] at void
        cases void
      · exact unissued issued
      · exact elsewhere place
  next => rfl

/-- Settles O13: the granted source's branch of the completion, and the formatter's act on its own frame. -/
theorem completionFreesItsSource : Obligations.CompletionFreesItsSource := by
  refine ⟨fun s f sends => exec_completion_crib sends, fun s f sends => exec_completion_crib sends,
    fun s f sends => exec_completion_crib sends, fun s f sends => exec_completion_hall sends,
    fun s f front rest sends queue => ⟨fun n bank slots r served valid record issued place => ?_, fun other => ?_⟩⟩
  · rw [exec_completion_hall sends, completeHall_handoff queue]
    exact congrArg (fun u => Host.Outcome.next (grants u)) (enterService_served served valid record issued place)
  · rw [exec_completion_hall sends, completeHall_handoff queue]
    exact congrArg (fun u => Host.Outcome.next (grants u)) (enterService_other other)

end Sys2Proof.Line

/-! PROOFS. Rounding (00_scope.md 5.2) and the audit generator (R114). -/

namespace Sys2Proof.Arithmetic

open Sys2Proof Sys2Proof.Machine Sys2Proof.Transitions

/-! ## Rounding -/

theorem roundHalfOut_nearest_nonneg {x : Int} (nonneg : 0 ≤ x) {d : Nat} (positive : 0 < d) :
    2 * (x - roundHalfOut x d * d).natAbs ≤ d
      ∧ (2 * (x - roundHalfOut x d * d).natAbs = d → x.natAbs < (roundHalfOut x d * d).natAbs) := by
  have quotient := Nat.div_add_mod (2 * x.natAbs + d) (2 * d)
  have remainder := Nat.mod_lt (2 * x.natAbs + d) (show 0 < 2 * d by omega)
  rw [roundHalfOut, if_pos nonneg]
  generalize (2 * x.natAbs + d) / (2 * d) = q at *
  generalize (2 * x.natAbs + d) % (2 * d) = r at *
  have product : (q : Int) * d = (q * d : Nat) := by push_cast; rfl
  have twice : 2 * d * q = 2 * (q * d) := by ring
  rw [product]
  rw [twice] at quotient
  generalize q * d = p at *
  omega

/-- Settles O35: the quotient of 2x + d by 2d leaves a remainder below 2d; the negative values mirror it. -/
theorem roundingIsHalfOut : Obligations.RoundingIsHalfOut := by
  intro x d positive
  rcases le_total 0 x with nonneg | nonpos
  · exact roundHalfOut_nearest_nonneg nonneg positive
  · have mirrored := roundHalfOut_nearest_nonneg (x := -x) (by omega) positive
    rw [LengthArithmetic.roundHalfOut_neg, neg_mul] at mirrored
    omega

/-! ## The audit generator is linear -/

theorem getLsbD_auditStep (v : BitVec 15) (k : Nat) :
    (auditStep v).getLsbD k = if k = 0 then v.getLsbD 14 ^^ v.getLsbD 13 else decide (k < 15) && v.getLsbD (k - 1) := by
  cases k with
  | zero => exact auditStep_getLsbD_zero v
  | succ k =>
    rcases Nat.lt_or_ge k 14 with low | high
    · rw [auditStep_getLsbD_succ v low]
      simp [show k + 1 < 15 by omega]
    · rw [BitVec.getLsbD_of_ge _ _ (by omega)]
      simp [show ¬k + 1 < 15 by omega]

theorem auditStep_xor (v w : BitVec 15) : auditStep (v ^^^ w) = auditStep v ^^^ auditStep w := by
  refine BitVec.eq_of_getLsbD_eq fun k low => ?_
  simp only [getLsbD_auditStep, BitVec.getLsbD_xor]
  split
  next =>
    cases v.getLsbD 14 <;> cases v.getLsbD 13 <;> simp
  next => simp [low]

theorem auditStep_injective : Function.Injective auditStep := by
  intro v w same
  have below : ∀ k < 14, v.getLsbD k = w.getLsbD k := fun k low => by
    rw [← auditStep_getLsbD_succ v low, same, auditStep_getLsbD_succ w low]
  have feedback : (v.getLsbD 14 ^^ v.getLsbD 13) = (w.getLsbD 14 ^^ w.getLsbD 13) := by
    rw [← auditStep_getLsbD_zero, same, auditStep_getLsbD_zero]
  refine BitVec.eq_of_getLsbD_eq fun k low => ?_
  rcases Nat.lt_or_ge k 14 with h | h
  · exact below k h
  · obtain rfl : k = 14 := by omega
    rw [below 13 (by decide)] at feedback
    exact (Bool.xor_left_inj).1 feedback

theorem iterate_auditStep_xor (k : Nat) (v w : BitVec 15) :
    auditStep^[k] (v ^^^ w) = auditStep^[k] v ^^^ auditStep^[k] w := by
  induction k generalizing v w with
  | zero => rfl
  | succ k ih => rw [Function.iterate_succ_apply, auditStep_xor, ih]; rfl

theorem iterate_auditStep_zero (k : Nat) : auditStep^[k] 0 = 0 := Function.iterate_fixed (by decide) k

/-! ## Adding step counts

From the value `base`, whose place 14 alone is 1, the generator reaches the value whose place i alone is 1 after
(i + 1) % 15 steps. So the places of a value spell it as a sum of steps of `base`, and a value that `base` reaches
after j steps tells how to step any other value j times. -/

/-- Place 14 alone. -/
def base : BitVec 15 := BitVec.twoPow 15 14

/-- The sum of the steps of `b` that the lowest `n` places of `a` name. -/
def sumSteps (a b : BitVec 15) (n : Nat) : BitVec 15 :=
  (List.range n).foldl (fun sum i => sum ^^^ (if a.getLsbD i then auditStep^[(i + 1) % 15] b else 0)) 0

/-- The steps of `b` that `a` stands for. -/
def combine (a b : BitVec 15) : BitVec 15 := sumSteps a b 15

theorem sumSteps_succ (a b : BitVec 15) (n : Nat) :
    sumSteps a b (n + 1) = sumSteps a b n ^^^ (if a.getLsbD n then auditStep^[(n + 1) % 15] b else 0) := by
  rw [sumSteps, List.range_succ, List.foldl_append]
  rfl

theorem iterate_sumSteps (k : Nat) (a b : BitVec 15) (n : Nat) :
    auditStep^[k] (sumSteps a b n) = sumSteps a (auditStep^[k] b) n := by
  induction n with
  | zero => exact iterate_auditStep_zero k
  | succ n ih =>
    rw [sumSteps_succ, sumSteps_succ, iterate_auditStep_xor, ih]
    split
    next => rw [← Function.iterate_add_apply, Nat.add_comm, Function.iterate_add_apply]
    next => rw [iterate_auditStep_zero]

theorem iterate_base {i : Nat} (low : i < 15) : auditStep^[(i + 1) % 15] base = BitVec.twoPow 15 i := by
  decide +revert

theorem sumSteps_base (a : BitVec 15) {n : Nat} (low : n ≤ 15) (k : Nat) :
    (sumSteps a base n).getLsbD k = (decide (k < n) && a.getLsbD k) := by
  induction n with
  | zero => simp [sumSteps]
  | succ n ih =>
    rw [sumSteps_succ, iterate_base low, BitVec.getLsbD_xor, ih (by omega)]
    rcases Nat.lt_trichotomy k n with below | rfl | above
    · have other : (if a.getLsbD n then BitVec.twoPow 15 n else 0).getLsbD k = false := by
        split <;> simp [BitVec.getLsbD_twoPow, below.ne']
      rw [other]
      simp [below, Nat.lt_succ_of_lt below]
    · have own : (if a.getLsbD k then BitVec.twoPow 15 k else 0).getLsbD k = a.getLsbD k := by
        split <;> simp_all [show k < 15 by omega]
      rw [own]
      simp
    · have other : (if a.getLsbD n then BitVec.twoPow 15 n else 0).getLsbD k = false := by
        split <;> simp [BitVec.getLsbD_twoPow, above.ne]
      rw [other]
      simp [show ¬k < n by omega, show ¬k < n + 1 by omega]

theorem combine_base (a : BitVec 15) : combine a base = a :=
  BitVec.eq_of_getLsbD_eq fun k low => by rw [combine, sumSteps_base a le_rfl]; simp [low]

/-- Values that `base` reaches combine to the value that it reaches after both step counts. -/
theorem iterate_add_base (j k : Nat) :
    auditStep^[j + k] base = combine (auditStep^[j] base) (auditStep^[k] base) := by
  rw [Nat.add_comm, Function.iterate_add_apply, combine, ← iterate_sumSteps]
  exact congrArg _ (combine_base _).symm

/-- What `base` reaches after twice as many steps. -/
def doubled (a : BitVec 15) : BitVec 15 := combine a a

theorem iterate_two_pow (j : Nat) : auditStep^[2 ^ j] base = doubled^[j] (auditStep base) := by
  induction j with
  | zero => rfl
  | succ j ih =>
    rw [Function.iterate_succ_apply', ← ih, doubled, ← iterate_add_base, ← two_mul, pow_succ']

theorem period_base : auditStep^[32767] base = base := by
  refine auditStep_injective ?_
  rw [← Function.iterate_succ_apply' auditStep]
  refine (iterate_two_pow 15).trans ?_
  decide +kernel

/-- 32,767 is 7 · 31 · 151: after none of the three largest proper divisors is `base` reached again. -/
theorem minimalPeriod_base : Function.minimalPeriod auditStep base = 32767 := by
  have divides : Function.minimalPeriod auditStep base ∣ 32767 := Function.IsPeriodicPt.minimalPeriod_dvd period_base
  have returns : ∀ n, Function.minimalPeriod auditStep base ∣ n → auditStep^[n] base = base := fun n divides =>
    (Function.isPeriodicPt_iff_minimalPeriod_dvd (f := auditStep)).2 divides
  have not217 : auditStep^[2 ^ 7 + (2 ^ 6 + (2 ^ 4 + (2 ^ 3 + 2 ^ 0)))] base ≠ base := by
    simp only [iterate_add_base, iterate_two_pow]
    decide +kernel
  have not1057 : auditStep^[2 ^ 10 + (2 ^ 5 + 2 ^ 0)] base ≠ base := by
    simp only [iterate_add_base, iterate_two_pow]
    decide +kernel
  have not4681 : auditStep^[2 ^ 12 + (2 ^ 9 + (2 ^ 6 + (2 ^ 3 + 2 ^ 0)))] base ≠ base := by
    simp only [iterate_add_base, iterate_two_pow]
    decide +kernel
  generalize Function.minimalPeriod auditStep base = d at *
  have listed : d ∈ Nat.divisors 32767 := Nat.mem_divisors.2 ⟨divides, by decide⟩
  simp only [Nat.divisors_ofNat, Finset.mem_insert, Finset.mem_singleton] at listed
  rcases listed with rfl | rfl | rfl | rfl | rfl | rfl | rfl | rfl
  · exact absurd (returns 217 (by decide)) not217
  · exact absurd (returns 217 (by decide)) not217
  · exact absurd (returns 217 (by decide)) not217
  · exact absurd (returns 1057 (by decide)) not1057
  · exact absurd (returns 217 (by decide)) not217
  · exact absurd (returns 1057 (by decide)) not1057
  · exact absurd (returns 4681 (by decide)) not4681
  · rfl

/-- The generator reaches every nonzero value from `base`. -/
theorem exists_iterate_base {v : BitVec 15} (nonzero : v ≠ 0) : ∃ k < 32767, auditStep^[k] base = v := by
  have nonzeroSteps : ∀ k, auditStep^[k] base ≠ 0 := fun k zero => by
    rw [← iterate_auditStep_zero k] at zero
    exact absurd (auditStep_injective.iterate k zero) (by decide)
  have injective : Set.InjOn (fun k => (auditStep^[k] base).toNat) (Finset.range 32767) := by
    intro j below k below' same
    have steps := Function.iterate_injOn_Iio_minimalPeriod (f := auditStep) (x := base)
    rw [minimalPeriod_base] at steps
    exact steps (by simpa using below) (by simpa using below') (BitVec.eq_of_toNat_eq same)
  have image : (Finset.range 32767).image (fun k => (auditStep^[k] base).toNat) = Finset.Ico 1 32768 := by
    refine Finset.eq_of_subset_of_card_le (fun n mem => ?_) ?_
    · obtain ⟨k, -, rfl⟩ := Finset.mem_image.1 mem
      have positive : (auditStep^[k] base).toNat ≠ 0 := fun zero => nonzeroSteps k (BitVec.eq_of_toNat_eq zero)
      have below := (auditStep^[k] base).isLt
      simp only [Finset.mem_Ico]
      omega
    · rw [Finset.card_image_of_injOn injective]
      simp
  have mem : v.toNat ∈ Finset.Ico 1 32768 := by
    have positive : v.toNat ≠ 0 := fun zero => nonzero (BitVec.eq_of_toNat_eq zero)
    have below := v.isLt
    simp only [Finset.mem_Ico]
    omega
  rw [← image] at mem
  obtain ⟨k, below, same⟩ := Finset.mem_image.1 mem
  exact ⟨k, Finset.mem_range.1 below, BitVec.eq_of_toNat_eq same⟩

/-- Settles O53: the places of a step, and the way from one value over `base` to the other, cut to one period. -/
theorem auditRunsThroughAllValues : Obligations.AuditRunsThroughAllValues := by
  refine ⟨fun v k low => auditStep_getLsbD_succ v low, auditStep_getLsbD_zero, fun v w v0 w0 => ?_⟩
  obtain ⟨j, below, rfl⟩ := exists_iterate_base v0
  obtain ⟨k, below', rfl⟩ := exists_iterate_base w0
  have around : ∀ n, auditStep^[n % 32767] base = auditStep^[n] base := fun n => by
    rw [← minimalPeriod_base]
    exact Function.iterate_mod_minimalPeriod_eq
  refine ⟨(k + (32767 - j)) % 32767, Nat.mod_lt _ (by decide), ?_⟩
  rw [← Function.iterate_add_apply, ← around, Nat.mod_add_mod, show k + (32767 - j) + j = k + 32767 by omega, Nat.add_mod_right,
    around]

end Sys2Proof.Arithmetic

/-! PROOFS. The check of R158. -/

namespace Sys2Proof.Check

open Sys2Proof Sys2Proof.Machine

/-- The register after one bit: its places move up, and the polynomial enters when its top place and the bit differ. -/
theorem getLsbD_checkBit (r : BitVec 16) (b : Bool) (k : Nat) : (checkBit r b).getLsbD k
    = (decide (k < 16) && (decide (0 < k) && r.getLsbD (k - 1) ^^ (r.msb ^^ b) && (0x1021#16).getLsbD k)) := by
  unfold checkBit
  split
  next differ =>
    rw [differ, BitVec.getLsbD_xor, BitVec.getLsbD_shiftLeft]
    rcases Nat.lt_or_ge k 16 with low | high
    · cases k <;> simp [low]
    · simp [Nat.not_lt.2 high, BitVec.getLsbD_of_ge _ _ high]
  next same =>
    rw [Bool.eq_false_iff.2 same, BitVec.getLsbD_shiftLeft]
    cases k <;> simp

/-- Place 0 of the result tells whether the polynomial entered, the places above it the rest of the register. -/
theorem checkBit_injective (b : Bool) : Function.Injective fun r => checkBit r b := by
  intro r r' same
  have place : ∀ k, (checkBit r b).getLsbD k = (checkBit r' b).getLsbD k := fun k => congrArg (BitVec.getLsbD · k) same
  simp only [getLsbD_checkBit] at place
  have top : r.msb = r'.msb := by simpa using place 0
  refine BitVec.eq_of_getLsbD_eq fun k low => ?_
  rcases Nat.lt_or_ge k 15 with below | above
  · have next := place (k + 1)
    rw [top] at next
    simpa [show k + 1 < 16 by omega] using next
  · obtain rfl : k = 15 := by omega
    simpa [BitVec.msb_eq_getLsbD_last] using top

theorem foldl_checkBit_injective (b : Byte) (is : List Nat) :
    Function.Injective fun r => is.foldl (fun r i => checkBit r (b.getMsbD i)) r := by
  induction is with
  | nil => exact fun _ _ same => same
  | cons i is ih => exact fun r r' same => checkBit_injective _ (ih same)

theorem checkByte_injective (b : Byte) : Function.Injective fun r => checkByte r b := foldl_checkBit_injective b _

/-- A register whose top bits are the bits that come in only moves up. -/
theorem foldl_checkBit_top (w : BitVec 16) (n : Nat) :
    (List.range n).foldl (fun r i => checkBit r (w.getMsbD i)) w = w <<< n := by
  induction n with
  | zero => simp
  | succ n ih =>
    rw [List.range_succ, List.foldl_append, ih]
    have top : ((w <<< n).msb ^^ w.getMsbD n) = false := by simp [BitVec.msb_shiftLeft]
    simp only [List.foldl_cons, List.foldl_nil, checkBit, top]
    rw [if_neg (by decide), ← BitVec.shiftLeft_add]

/-- A byte that meets itself at the top of the register leaves the lower byte there. -/
theorem checkByte_append (a b : Byte) : checkByte (a ++ b) a = (b ++ 0#8 : BitVec 16) := by
  have bits : ∀ i ∈ List.range 8, ∀ r, checkBit r (a.getMsbD i) = checkBit r ((a ++ b).getMsbD i) := by
    intro i mem r
    rw [BitVec.getMsbD_append, if_neg (Nat.not_le.2 (List.mem_range.1 mem))]
  have folded : checkByte (a ++ b) a = (a ++ b) <<< 8 := by
    rw [checkByte, List.foldl_ext _ _ _ fun r i mem => bits i mem r]
    exact foldl_checkBit_top (a ++ b) 8
  rw [folded]
  refine BitVec.eq_of_getLsbD_eq fun k low => ?_
  simp only [BitVec.getLsbD_shiftLeft, BitVec.getLsbD_append]
  rcases Nat.lt_or_ge k 8 with below | above
  · simp [below]
  · simp [low, Nat.not_lt.2 above, show k - 8 < 8 by omega]

theorem checkOf_append (covered : List Byte) (a b : Byte) :
    checkOf (covered ++ [a, b]) = checkByte (checkByte (checkOf covered) a) b := by
  rw [checkOf, List.foldl_append]
  rfl

/-- Two bytes bring the register to 0 exactly when they are its own. -/
theorem checkBytes_eq_zero (r : BitVec 16) (a b : Byte) : checkByte (checkByte r a) b = 0 ↔ r = (a ++ b : BitVec 16) := by
  have last : checkByte (b ++ 0#8) b = 0 := checkByte_append b 0
  rw [← last, (checkByte_injective b).eq_iff (a := checkByte r a), ← checkByte_append a b, (checkByte_injective a).eq_iff]

theorem append_eq_iff (r : BitVec 16) (a b : Byte) :
    r = (a ++ b : BitVec 16) ↔ [a, b] = [r.extractLsb' 8 8, r.extractLsb' 0 8] := by
  constructor
  · rintro rfl
    rw [BitVec.extractLsb'_append_eq_left, BitVec.extractLsb'_append_eq_right]
  · intro same
    cases same
    exact (BitVec.extractLsb'_append_extractLsb' (w := 8) (len := 8)).symm

/-- Settles O6: the worked value is evaluated, and the two bytes that bring the register to 0 are its own. -/
theorem checkAgreesExactlyAtZero : Obligations.CheckAgreesExactlyAtZero := by
  refine ⟨by decide +kernel, fun covered a b => ?_⟩
  rw [checkOf_append, checkBytes_eq_zero, append_eq_iff]
  rfl

end Sys2Proof.Check

/-! PROOFS. Reading back what is written: the encodings of R159 and the bodies of the requests. -/

namespace Sys2Proof.Encodings

open Sys2Proof Sys2Proof.Machine

/-! ## The encodings of R159 -/

/-- The reader takes exactly these bytes and gives this value, whatever follows. -/
def Reads {α : Type} (get : Reader α) (bytes : List Byte) (a : α) : Prop := ∀ rest, get (bytes ++ rest) = some (a, rest)

theorem readAll_of_reads {α : Type} {get : Reader α} {bytes : List Byte} {a : α} (reads : Reads get bytes a) :
    readAll get bytes = some a := by
  have whole := reads []
  rw [List.append_nil] at whole
  rw [readAll, whole]

@[simp] theorem getU8_putU8 {n : Nat} (fits : isU8 n = true) (rest : List Byte) :
    getU8 (putU8 n ++ rest) = some (n, rest) := by
  have below : n < 256 := by simpa [isU8] using fits
  simp [putU8, getU8, Nat.mod_eq_of_lt below]

@[simp] theorem getU16_putU16 {n : Nat} (fits : isU16 n = true) (rest : List Byte) :
    getU16 (putU16 n ++ rest) = some (n, rest) := by
  have below : n < 65536 := by simpa [isU16] using fits
  simp only [putU16, getU16, List.cons_append, List.nil_append, BitVec.toNat_ofNat, Option.some.injEq, Prod.mk.injEq, and_true]
  omega

theorem getWord_wordBytes (w : BitVec 32) (rest : List Byte) : getWord (wordBytes w ++ rest) = some (w, rest) := by
  have joined : w.extractLsb' 24 8 ++ w.extractLsb' 16 8 ++ w.extractLsb' 8 8 ++ w.extractLsb' 0 8 = w := by
    have pair : w.extractLsb' 24 8 ++ w.extractLsb' 16 8 = w.extractLsb' 16 16 :=
      BitVec.extractLsb'_append_extractLsb'_eq_extractLsb' rfl
    have triple : w.extractLsb' 16 16 ++ w.extractLsb' 8 8 = w.extractLsb' 8 24 :=
      BitVec.extractLsb'_append_extractLsb'_eq_extractLsb' rfl
    rw [pair, triple]
    exact BitVec.extractLsb'_append_extractLsb' (w := 24) (len := 8)
  simp only [wordBytes, List.cons_append, List.nil_append, getWord, joined]

@[simp] theorem getI32_putI32 {x : Int} (fits : isI32 x = true) (rest : List Byte) :
    getI32 (putI32 x ++ rest) = some (x, rest) := by
  have range : -2147483648 ≤ x ∧ x ≤ 2147483647 := by simpa [isI32] using fits
  have back : (BitVec.ofInt 32 x).toInt = x := by
    rw [BitVec.toInt_ofInt]
    exact Int.bmod_eq_of_le (by omega) (by omega)
  simp [getI32, putI32, getWord_wordBytes, back]

@[simp] theorem getTag_putTag (t : Tag) (rest : List Byte) : getTag (putTag t ++ rest) = some (t, rest) := by
  have joined : t.extractLsb' 32 32 ++ t.extractLsb' 0 32 = t := BitVec.extractLsb'_append_extractLsb'
  simp [getTag, putTag, List.append_assoc, getWord_wordBytes, joined]

@[simp] theorem getOption_putOption {α : Type} {get : Reader α} {put : α → List Byte} {size : Nat} {x : Option α}
    (present : ∀ a, x = some a → Reads get (put a) a) (absent : ∃ a, Reads get (List.replicate size 0) a)
    (rest : List Byte) : getOption get (putOption size put x ++ rest) = some (x, rest) := by
  cases x with
  | some a =>
    simp only [getOption, putOption, List.append_assoc, getU8_putU8 (n := 1) rfl, Option.bind_eq_bind, Option.bind_some,
      present a rfl rest]
  | none =>
    obtain ⟨a, reads⟩ := absent
    simp only [getOption, putOption, List.append_assoc, getU8_putU8 (n := 0) rfl, Option.bind_eq_bind, Option.bind_some,
      reads rest]

theorem getMany_flatten {α : Type} {get : Reader α} {put : α → List Byte} {xs : List α}
    (entries : ∀ a ∈ xs, Reads get (put a) a) (rest : List Byte) :
    getMany get xs.length ((xs.map put).flatten ++ rest) = some (xs, rest) := by
  induction xs with
  | nil => rfl
  | cons a xs ih =>
    rw [List.map_cons, List.flatten_cons, List.append_assoc, List.length_cons, getMany, Option.bind_eq_bind,
      entries a List.mem_cons_self]
    simp [ih fun b mem => entries b (List.mem_cons_of_mem _ mem)]

@[simp] theorem getList_putList {α : Type} {get : Reader α} {put : α → List Byte} {xs : List α}
    (entries : ∀ a ∈ xs, Reads get (put a) a) (short : xs.length < 256) (rest : List Byte) :
    getList get (putList put xs ++ rest) = some (xs, rest) := by
  have count : isU8 xs.length = true := by simpa [isU8] using short
  rw [getList, putList, List.append_assoc, getU8_putU8 count]
  exact getMany_flatten entries rest

/-! ## Bodies -/

/-- A field that reads hands its value and what follows it on. -/
theorem bind_read {α β : Type} {get : Reader α} {bs rest : List Byte} {a : α} (reads : get bs = some (a, rest))
    (next : α × List Byte → Option β) : (get bs).bind next = next (a, rest) := by rw [reads, Option.bind_some]

theorem reads_typeBody {b : TypeBody} (formed : b.wellFormed = true) : Reads getTypeBody (putTypeBody b) b := by
  intro rest
  simp only [TypeBody.wellFormed, Bool.and_eq_true] at formed
  obtain ⟨⟨⟨⟨⟨⟨⟨⟨⟨⟨⟨⟨defined, axes⟩, nominalL⟩, lowerL⟩, upperL⟩, nominalR⟩, lowerR⟩, upperR⟩, band⟩, life⟩, lengthWear⟩,
    radiusWear⟩, audit⟩ := formed
  simp only [putTypeBody, List.append_assoc]
  unfold getTypeBody
  refine (bind_read (getU8_putU8 defined _) _).trans ?_
  refine (bind_read (getU8_putU8 axes _) _).trans ?_
  refine (bind_read (getI32_putI32 nominalL _) _).trans ?_
  refine (bind_read (getI32_putI32 lowerL _) _).trans ?_
  refine (bind_read (getI32_putI32 upperL _) _).trans ?_
  refine (bind_read (getI32_putI32 nominalR _) _).trans ?_
  refine (bind_read (getI32_putI32 lowerR _) _).trans ?_
  refine (bind_read (getI32_putI32 upperR _) _).trans ?_
  refine (bind_read (getI32_putI32 band _) _).trans ?_
  refine (bind_read (getU16_putU16 life _) _).trans ?_
  refine (bind_read (getI32_putI32 lengthWear _) _).trans ?_
  refine (bind_read (getI32_putI32 radiusWear _) _).trans ?_
  exact bind_read (getU16_putU16 audit _) _

theorem reads_breakpoint {p : Breakpoint} (q : isI32 p.q = true) (g : isI32 p.g = true) :
    Reads getBreakpoint (putBreakpoint p) p := by
  intro rest
  simp [getBreakpoint, putBreakpoint, q, g]

theorem reads_calBody {b : CalBody} (formed : b.wellFormed = true) : Reads getCalBody (putCalBody b) b := by
  intro rest
  simp only [CalBody.wellFormed, Bool.and_eq_true, List.all_eq_true, decide_eq_true_eq] at formed
  obtain ⟨⟨⟨⟨⟨⟨⟨⟨⟨count, points⟩, short⟩, num⟩, den⟩, zero⟩, alpha⟩, refMin⟩, refMax⟩, depth⟩ := formed
  have list := fun more => getList_putList (get := getBreakpoint) (put := putBreakpoint) (xs := b.breakpoints)
    (fun p mem => reads_breakpoint (points p mem).1 (points p mem).2) (by omega) more
  simp only [putCalBody, List.append_assoc]
  unfold getCalBody
  refine (bind_read (getU8_putU8 count _) _).trans ?_
  refine (bind_read (list _) _).trans ?_
  refine (bind_read (getU16_putU16 num _) _).trans ?_
  refine (bind_read (getU16_putU16 den _) _).trans ?_
  refine (bind_read (getI32_putI32 zero _) _).trans ?_
  refine (bind_read (getU16_putU16 alpha _) _).trans ?_
  refine (bind_read (getU16_putU16 refMin _) _).trans ?_
  refine (bind_read (getU16_putU16 refMax _) _).trans ?_
  exact bind_read (getU8_putU8 depth _) _

theorem reads_slotBody {b : SlotBody}
    (formed : isU8 b.source && isU8 b.unit && isU8 b.width && isU8 b.negate && isU8 b.blankZero) :
    Reads getSlotBody (putSlotBody b) b := by
  intro rest
  simp only [Bool.and_eq_true] at formed
  simp [getSlotBody, putSlotBody, formed]

theorem reads_profileBody {b : ProfileBody} (formed : b.wellFormed = true) : Reads getProfileBody (putProfileBody b) b := by
  intro rest
  simp only [ProfileBody.wellFormed, Bool.and_eq_true, List.all_eq_true, decide_eq_true_eq] at formed
  obtain ⟨⟨⟨count, slots⟩, short⟩, offset⟩ := formed
  have list := fun more => getList_putList (get := getSlotBody) (put := putSlotBody) (xs := b.slots)
    (fun y mem => reads_slotBody (by simpa using slots y mem)) (by omega) more
  simp [getProfileBody, putProfileBody, count, list, offset]

theorem reads_machineBody {b : MachineBody} (formed : b.wellFormed = true) : Reads getMachineBody (putMachineBody b) b := by
  intro rest
  simp only [MachineBody.wellFormed, Bool.and_eq_true] at formed
  simp [getMachineBody, putMachineBody, formed]

theorem reads_entryBody {b : EntryBody} (formed : b.wellFormed = true) : Reads getEntryBody (putEntryBody b) b := by
  intro rest
  simp only [EntryBody.wellFormed, Bool.and_eq_true] at formed
  simp [getEntryBody, putEntryBody, formed]

theorem reads_place {p : Place} (formed : p.wellFormed = true) : Reads getPlace (putPlace p) p := by
  intro rest
  simp only [Place.wellFormed, Bool.and_eq_true] at formed
  simp [getPlace, putPlace, formed]

theorem reads_holdBody {b : HoldBody} (formed : b.wellFormed = true) : Reads getHoldBody (putHoldBody b) b := by
  intro rest
  simp only [HoldBody.wellFormed, Bool.and_eq_true] at formed
  simp [getHoldBody, putHoldBody, formed]

/-- An absent tag's filler reads as a tag. -/
theorem getOption_putTag (x : Option Tag) (rest : List Byte) :
    getOption getTag (putOption 8 putTag x ++ rest) = some (x, rest) :=
  getOption_putOption (fun t _ => getTag_putTag t) ⟨0, fun _ => rfl⟩ rest

theorem getOption_putEntryBody {x : Option EntryBody} (formed : x.all EntryBody.wellFormed = true) (rest : List Byte) :
    getOption getEntryBody (putOption 8 putEntryBody x ++ rest) = some (x, rest) :=
  getOption_putOption (fun e is => reads_entryBody (by simpa [is] using formed)) ⟨⟨0, 0, 0, 0, 0⟩, fun _ => rfl⟩ rest

theorem getOption_putU8 {x : Option Nat} (fits : x.all isU8 = true) (rest : List Byte) :
    getOption getU8 (putOption 1 putU8 x ++ rest) = some (x, rest) :=
  getOption_putOption (fun n is => getU8_putU8 (by simpa [is] using fits)) ⟨0, fun _ => rfl⟩ rest

theorem getOption_putPlace {x : Option Place} (formed : x.all Place.wellFormed = true) (rest : List Byte) :
    getOption getPlace (putOption 2 putPlace x ++ rest) = some (x, rest) :=
  getOption_putOption (fun p is => reads_place (by simpa [is] using formed)) ⟨⟨0, 0⟩, fun _ => rfl⟩ rest

theorem reads_restoreBody {b : RestoreBody} (formed : b.wellFormed = true) : Reads getRestoreBody (putRestoreBody b) b := by
  intro rest
  simp only [RestoreBody.wellFormed, Bool.and_eq_true] at formed
  obtain ⟨⟨⟨⟨⟨⟨⟨⟨⟨type, length⟩, radius⟩, life⟩, lengthWear⟩, radiusWear⟩, recheck⟩, reason⟩, target⟩, location⟩ := formed
  simp only [putRestoreBody, List.append_assoc]
  unfold getRestoreBody
  refine (bind_read (getU8_putU8 type _) _).trans ?_
  refine (bind_read (getOption_putTag b.tag _) _).trans ?_
  refine (bind_read (getOption_putEntryBody length _) _).trans ?_
  refine (bind_read (getOption_putEntryBody radius _) _).trans ?_
  refine (bind_read (getU16_putU16 life _) _).trans ?_
  refine (bind_read (getI32_putI32 lengthWear _) _).trans ?_
  refine (bind_read (getI32_putI32 radiusWear _) _).trans ?_
  refine (bind_read (getU8_putU8 recheck _) _).trans ?_
  refine (bind_read (getOption_putU8 reason _) _).trans ?_
  refine (bind_read (getU8_putU8 target _) _).trans ?_
  exact bind_read (getOption_putPlace location _) _

/-! ## Requests -/

theorem reads_one {f : Nat → Instr} {a : Nat} (fits : isU8 a = true) : Reads (getOne f) (putU8 a) (f a) := by
  intro rest
  simp [getOne, fits]

theorem reads_number {f : Nat → Instr} {a : Nat} (fits : isU16 a = true) : Reads (getNumber f) (putU16 a) (f a) := by
  intro rest
  simp [getNumber, fits]

theorem reads_two {f : Nat → Nat → Instr} {a b : Nat} (first : isU8 a = true) (second : isU8 b = true) :
    Reads (getTwo f) (putU8 a ++ putU8 b) (f a b) := by
  intro rest
  simp [getTwo, first, second]

theorem reads_edit_type {rt number type : Nat} (n : isU16 number = true) (t : isU8 type = true) :
    Reads (getEdit rt) (putU16 number ++ putU8 1 ++ putU8 type) (.changeType rt number type) := by
  intro rest
  simp [getEdit, n, t, getU8_putU8 (n := 1) rfl]

theorem reads_edit_bind {rt number : Nat} (n : isU16 number = true) (tag : Tag) :
    Reads (getEdit rt) (putU16 number ++ putU8 2 ++ putTag tag) (.bindTag rt number tag) := by
  intro rest
  simp [getEdit, n, getU8_putU8 (n := 2) rfl]

theorem reads_edit_unbind {rt number : Nat} (n : isU16 number = true) :
    Reads (getEdit rt) (putU16 number ++ putU8 3) (.unbindTag rt number) := by
  intro rest
  simp [getEdit, n, getU8_putU8 (n := 3) rfl]

theorem reads_edit_rebuild {rt number : Nat} (n : isU16 number = true) :
    Reads (getEdit rt) (putU16 number ++ putU8 4) (.rebuild rt number) := by
  intro rest
  simp [getEdit, n, getU8_putU8 (n := 4) rfl]

/-- A request's body, read by the reader of its code. -/
theorem reads_request {i : Instr} {code rt : Nat} {body : List Byte} (formed : i.wellFormed = true)
    (listed : listedRequest i = true) (spelled : encodeRequest i = some (code, rt, body)) :
    ∃ get, requestReader code rt = some get ∧ Reads get body i := by
  cases i
  case identify | readStatus | clearStatus | readCounters | clearCounters | sweepSuspend | sweepResume | lineReset =>
    cases spelled
    exact ⟨_, rfl, fun rest => rfl⟩
  case readType | cancelCalSwitch | headRestore | cancelProfileSwitch | pauseHandoff | resumeHandoff | setProtection =>
    cases spelled
    simp only [Instr.wellFormed, Bool.and_eq_true] at formed
    exact ⟨_, rfl, reads_one formed.2⟩
  case readCal | switchCal | readProfile | switchProfile =>
    cases spelled
    simp only [Instr.wellFormed, Bool.and_eq_true] at formed
    exact ⟨_, rfl, reads_two formed.1.2 formed.2⟩
  case delete | forceReturn | seedAudit =>
    cases spelled
    simp only [Instr.wellFormed, Bool.and_eq_true] at formed
    exact ⟨_, rfl, reads_number formed.2⟩
  case writeType rt type b =>
    cases spelled
    simp only [Instr.wellFormed, Bool.and_eq_true] at formed
    refine ⟨_, rfl, fun rest => ?_⟩
    simp [formed, reads_typeBody formed.2 rest]
  case writeCal rt head bank b =>
    cases spelled
    simp only [Instr.wellFormed, Bool.and_eq_true] at formed
    refine ⟨_, rfl, fun rest => ?_⟩
    simp [formed, reads_calBody formed.2 rest]
  case defineMachine rt machine b =>
    cases spelled
    simp only [Instr.wellFormed, Bool.and_eq_true] at formed
    refine ⟨_, rfl, fun rest => ?_⟩
    simp [formed, reads_machineBody formed.2 rest]
  case writeProfile rt machine bank b =>
    cases spelled
    simp only [Instr.wellFormed, Bool.and_eq_true] at formed
    refine ⟨_, rfl, fun rest => ?_⟩
    simp [formed, reads_profileBody formed.2 rest]
  case readPockets rt machine first count =>
    cases spelled
    simp only [Instr.wellFormed, Bool.and_eq_true] at formed
    refine ⟨_, rfl, fun rest => ?_⟩
    simp [formed]
  case create rt number type tag =>
    cases spelled
    simp only [Instr.wellFormed, Bool.and_eq_true] at formed
    refine ⟨_, rfl, fun rest => ?_⟩
    simp [formed, getOption_putTag tag rest]
  case restore rt number b =>
    cases spelled
    simp only [Instr.wellFormed, Bool.and_eq_true] at formed
    refine ⟨_, rfl, fun rest => ?_⟩
    simp [formed, reads_restoreBody formed.2 rest]
  case changeType rt number type =>
    cases spelled
    simp only [Instr.wellFormed, Bool.and_eq_true] at formed
    exact ⟨_, rfl, reads_edit_type formed.1.2 formed.2⟩
  case bindTag rt number tag =>
    cases spelled
    simp only [Instr.wellFormed, Bool.and_eq_true] at formed
    exact ⟨_, rfl, reads_edit_bind formed.2 tag⟩
  case unbindTag rt number =>
    cases spelled
    simp only [Instr.wellFormed, Bool.and_eq_true] at formed
    exact ⟨_, rfl, reads_edit_unbind formed.2⟩
  case rebuild rt number =>
    cases spelled
    simp only [Instr.wellFormed, Bool.and_eq_true] at formed
    exact ⟨_, rfl, reads_edit_rebuild formed.2⟩
  case readAssemblies rt start count =>
    cases spelled
    simp only [Instr.wellFormed, Bool.and_eq_true] at formed
    refine ⟨_, rfl, fun rest => ?_⟩
    simp [formed]
  case writeHolds rt window b =>
    cases spelled
    simp only [Instr.wellFormed, Bool.and_eq_true] at formed
    refine ⟨_, rfl, fun rest => ?_⟩
    simp [formed, reads_holdBody formed.2 rest]
  all_goals cases listed

theorem decodeRequest_encodeRequest {i : Instr} {code rt : Nat} {body : List Byte} (formed : i.wellFormed = true)
    (listed : listedRequest i = true) (spelled : encodeRequest i = some (code, rt, body)) :
    decodeRequest code rt body = some i := by
  obtain ⟨get, reader, reads⟩ := reads_request formed listed spelled
  rw [decodeRequest, reader]
  exact readAll_of_reads reads

/-- Settles O7: each code's reader reads what the encoder writes, and each body is the encoder's by definition. -/
theorem requestsDecodeFromTheirBodies : Obligations.RequestsDecodeFromTheirBodies :=
  ⟨fun _ _ _ _ formed listed spelled => decodeRequest_encodeRequest formed listed spelled, fun _ =>
    ⟨rfl, rfl, rfl, rfl, rfl, fun _ _ => rfl, fun _ => rfl, fun _ _ _ => rfl, fun _ _ => rfl, fun _ _ => rfl,
      fun _ => rfl, fun _ => rfl, fun _ _ => rfl, fun _ _ _ => rfl, fun _ _ => rfl, fun _ _ => rfl, fun _ => rfl,
      fun _ => rfl, fun _ => rfl, fun _ _ _ => rfl, fun _ _ _ => rfl, fun _ _ => rfl, fun _ _ => rfl, fun _ _ => rfl,
      fun _ => rfl, fun _ => rfl, fun _ => rfl, fun _ _ => rfl, fun _ => rfl, fun _ _ => rfl, fun _ => rfl, rfl, rfl,
      fun _ => rfl, rfl, rfl⟩⟩

end Sys2Proof.Encodings

/-! PROOFS. From a frame to its command: the stages of R160 to R164 on a frame that a station sends, and on one that
no consumer gets. -/

namespace Sys2Proof.Arrivals

open Sys2Proof Sys2Proof.Machine Sys2Proof.Encodings

/-! ## The stages on a frame whose check agrees -/

/-- A frame whose check agrees meets the header checks of R161, and then goes by its kind and destination. -/
theorem arrivalOf_checked (defined : Nat → Bool) (port : Port) (d dst src kind len : Byte) (payload : List Byte) :
    arrivalOf defined port (d :: (dst :: src :: kind :: len :: payload) ++ checkField (dst :: src :: kind :: len :: payload))
      = if len.toNat > 240 ∨ payload.length ≠ len.toNat ∨ headerClear dst = false ∨ headerClear src = false
          ∨ headerSegment src ≠ port then .counted .malformed
        else (frameKind? kind.toNat).elim (.counted .malformed) fun k =>
          arrivalByDestination defined port (headerSegment dst) (headerNode dst) (headerNode src) k payload := by
  have length : (checkField (dst :: src :: kind :: len :: payload)).length = 2 := rfl
  simp only [List.cons_append, arrivalOf, List.length_append, length]
  rw [if_neg (by omega), Nat.add_sub_cancel, List.take_left' rfl, List.drop_left' rfl, if_neg (by simp)]
  cases frameKind? kind.toNat <;> rfl

/-- The header byte of a segment and a node. -/
def headerByte (p : Port) (n : Nat) : Byte := BitVec.ofNat 8 (segmentFlag p + n)

theorem toNat_headerByte (p : Port) {n : Nat} (node : n < 32) : (headerByte p n).toNat = segmentFlag p + n := by
  have flag : segmentFlag p ≤ 128 := by cases p <;> decide
  rw [headerByte, BitVec.toNat_ofNat]
  omega

theorem headerSegment_headerByte (p : Port) {n : Nat} (node : n < 32) : headerSegment (headerByte p n) = p := by
  rw [headerSegment, BitVec.msb_eq_decide, toNat_headerByte p node]
  cases p
  case crib => rw [if_neg (by simp [segmentFlag]; omega)]
  case hall => rw [if_pos (by simp [segmentFlag])]

theorem headerNode_headerByte (p : Port) {n : Nat} (node : n < 32) : headerNode (headerByte p n) = n := by
  rw [headerNode, toNat_headerByte p node]
  cases p <;> simp only [segmentFlag] <;> omega

theorem headerClear_headerByte (p : Port) {n : Nat} (node : n < 32) : headerClear (headerByte p n) = true := by
  rw [headerClear, toNat_headerByte p node]
  cases p <;> simp only [segmentFlag] <;> simp <;> omega

/-- A frame of section 9.2 passes the check and the header. -/
theorem arrivalOf_buildFrame (defined : Nat → Bool) (dstSeg srcSeg : Port) {dst src kind : Nat} {k : FrameKind}
    {payload : List Byte} (target : dst < 32) (from_ : src < 32) (is : frameKind? kind = some k) (short : payload.length ≤ 240) :
    arrivalOf defined srcSeg (buildFrame dstSeg dst srcSeg src kind payload)
      = arrivalByDestination defined srcSeg dstSeg dst src k payload := by
  have code : (BitVec.ofNat 8 kind).toNat = kind := by
    have below : kind < 256 := by
      unfold frameKind? at is
      split at is
      all_goals first | decide | cases is
    simp [Nat.mod_eq_of_lt below]
  have length : (BitVec.ofNat 8 payload.length).toNat = payload.length := by
    simp [Nat.mod_eq_of_lt (show payload.length < 256 by omega)]
  have built : buildFrame dstSeg dst srcSeg src kind payload = startDelimiter :: (headerByte dstSeg dst :: headerByte srcSeg src
      :: BitVec.ofNat 8 kind :: BitVec.ofNat 8 payload.length :: payload)
      ++ checkField (headerByte dstSeg dst :: headerByte srcSeg src :: BitVec.ofNat 8 kind
        :: BitVec.ofNat 8 payload.length :: payload) := rfl
  rw [built, arrivalOf_checked, length, code, is, headerSegment_headerByte _ target, headerSegment_headerByte _ from_,
    headerNode_headerByte _ target, headerNode_headerByte _ from_, headerClear_headerByte _ target, headerClear_headerByte _ from_]
  exact if_neg (by simp; omega)

/-- A frame from a station to the part, in its own segment. -/
theorem arrivalOf_toPart (defined : Nat → Bool) (port : Port) {src kind : Nat} {k : FrameKind} {payload : List Byte}
    (from_ : src < 32) (is : frameKind? kind = some k) (short : payload.length ≤ 240) :
    arrivalOf defined port (buildFrame port 0 port src kind payload) = arrivalForPart defined port k src payload := by
  rw [arrivalOf_buildFrame defined port port (by decide) from_ is short]
  unfold arrivalByDestination
  exact if_pos rfl

/-! ## Payloads (R164) -/

theorem isU8_toNat (b : Bool) : isU8 b.toNat = true := by cases b <;> rfl

theorem mark_toNat (b : Bool) : decide (b.toNat % 2 = 1) = b := by cases b <;> rfl

/-- The bytes of a GAUGE payload after the sample kind. -/
def gaugeFields (g : GaugeFrame) : List Byte :=
  putU8 g.axis ++ putU8 g.gating ++ putBool g.overflow ++ putI32 g.scale ++ putU16 g.sensor ++ putU16 g.reference
    ++ putU8 g.temperature

theorem putGauge_eq (k : SampleKind) (g : GaugeFrame) : putGauge k g = BitVec.ofNat 8 (sampleKindCode k) :: gaugeFields g := rfl

theorem reads_gauge {g : GaugeFrame} (formed : g.wellFormed = true) : Reads getGauge (gaugeFields g) g := by
  intro rest
  simp only [GaugeFrame.wellFormed, Bool.and_eq_true] at formed
  simp [getGauge, gaugeFields, putBool, formed, isU8_toNat, mark_toNat]

theorem reads_usage {u : UsageReport} (formed : u.wellFormed = true) : Reads getUsage (putUsage u) u := by
  intro rest
  simp only [UsageReport.wellFormed, Bool.and_eq_true] at formed
  simp [getUsage, putUsage, putBool, formed, isU8_toNat, mark_toNat]

/-- The fields of a CONTACT after the sample kind. -/
def getContact : Reader (GaugeFrame × Tag) := fun bs => do
  let (g, bs) ← getGauge bs
  let (tag, bs) ← getTag bs
  some ((g, tag), bs)

/-- The fields of an ISSUE after the action. -/
def getIssue : Reader (Tag × Nat × Nat) := fun bs => do
  let (tag, bs) ← getTag bs
  let (machine, bs) ← getU8 bs
  let (pocket, bs) ← getU8 bs
  some ((tag, machine, pocket), bs)

/-- A payload that must be read whole: its command, or malformed (R164). -/
def wholly {α : Type} (get : Reader α) (command : α → Instr) (payload : List Byte) : Arrival :=
  (readAll get payload).elim (.counted .malformed) fun a => .command (command a)

theorem wholly_reads {α : Type} {get : Reader α} {payload : List Byte} {a : α} (reads : Reads get payload a)
    (command : α → Instr) : wholly get command payload = .command (command a) := by
  rw [wholly, readAll_of_reads reads]
  rfl

theorem gaugeArrival_contact {kind : Byte} (is : kind.toNat = 0) (h : Fin 4) (rest : List Byte) :
    gaugeArrival h (kind :: rest) = wholly getContact (fun x => .contact h x.1 x.2) rest := by
  unfold gaugeArrival wholly
  simp only [is]
  change (match readAll getContact rest with
    | some (g, tag) => Arrival.command (.contact h g tag)
    | none => .counted .malformed) = _
  cases readAll getContact rest <;> rfl

theorem gaugeArrival_sample {kind : Byte} (is : kind.toNat = 1) (h : Fin 4) (rest : List Byte) :
    gaugeArrival h (kind :: rest) = wholly getGauge (.sample h) rest := by
  unfold gaugeArrival wholly
  simp only [is]
  cases readAll getGauge rest <;> rfl

theorem gaugeArrival_release {kind : Byte} (is : kind.toNat = 2) (h : Fin 4) (rest : List Byte) :
    gaugeArrival h (kind :: rest) = wholly getGauge (.release h) rest := by
  unfold gaugeArrival wholly
  simp only [is]
  cases readAll getGauge rest <;> rfl

theorem gaugeArrival_unknown {kind : Byte} (above : 2 < kind.toNat) (h : Fin 4) (rest : List Byte) :
    gaugeArrival h (kind :: rest) = .counted .malformed := by
  unfold gaugeArrival
  dsimp only
  split
  next is => omega
  next is => omega
  next is => omega
  next => rfl

theorem tagArrival_issue {action : Byte} (is : action.toNat = 1) (c : Fin 4) (rest : List Byte) :
    tagArrival c (action :: rest) = wholly getIssue (fun x => .issue c x.1 x.2.1 x.2.2) rest := by
  unfold tagArrival wholly
  simp only [is]
  change (match readAll getIssue rest with
    | some (tag, machine, pocket) => Arrival.command (.issue c tag machine pocket)
    | none => .counted .malformed) = _
  cases readAll getIssue rest <;> rfl

theorem tagArrival_return {action : Byte} (is : action.toNat = 2) (c : Fin 4) (rest : List Byte) :
    tagArrival c (action :: rest) = wholly getTag (.returnHolder c) rest := by
  unfold tagArrival wholly
  simp only [is]
  cases readAll getTag rest <;> rfl

theorem tagArrival_unknown {action : Byte} (not1 : action.toNat ≠ 1) (not2 : action.toNat ≠ 2) (c : Fin 4)
    (rest : List Byte) : tagArrival c (action :: rest) = .counted .malformed := by
  unfold tagArrival
  dsimp only
  split
  next is => exact absurd is not1
  next is => exact absurd is not2
  next => rfl

theorem usageArrival_eq (m : Nat) (payload : List Byte) : usageArrival m payload = wholly getUsage (.usage m) payload := by
  unfold usageArrival wholly
  cases readAll getUsage payload <;> rfl

theorem reads_contact {g : GaugeFrame} (formed : g.wellFormed = true) (tag : Tag) :
    Reads getContact (gaugeFields g ++ putTag tag) (g, tag) := by
  intro rest
  simp [getContact, reads_gauge formed _]

theorem reads_issue {m p : Nat} (machine : isU8 m = true) (pocket : isU8 p = true) (tag : Tag) :
    Reads getIssue (putTag tag ++ putU8 m ++ putU8 p) (tag, m, p) := by
  intro rest
  simp [getIssue, machine, pocket]

/-! ## The frames of the commands -/

theorem arrival_gauge (defined : Nat → Bool) (h : Fin 4) {payload : List Byte} (short : payload.length ≤ 240) :
    arrivalOf defined .crib (buildFrame .crib 0 .crib (h + 2) 0x01 payload) = gaugeArrival h payload := by
  rw [arrivalOf_toPart defined .crib (by omega) rfl short, arrivalForPart, dif_pos (by omega)]
  rfl

theorem arrival_tag (defined : Nat → Bool) (c : Fin 4) {payload : List Byte} (short : payload.length ≤ 240) :
    arrivalOf defined .crib (buildFrame .crib 0 .crib (c + 6) 0x02 payload) = tagArrival c payload := by
  rw [arrivalOf_toPart defined .crib (by omega) rfl short, arrivalForPart, dif_pos (by omega)]
  rfl

theorem arrival_mgmt (defined : Nat → Bool) {payload : List Byte} (short : payload.length ≤ 240) :
    arrivalOf defined .crib (buildFrame .crib 0 .crib 1 0x04 payload) = mgmtArrival payload := by
  rw [arrivalOf_toPart defined .crib (by decide) rfl short]
  rfl

/-- An MGMT payload of a code, a tag and a body that the request's encoder writes. -/
theorem mgmtArrival_request {code rt : Nat} (c : isU8 code = true) (r : isU8 rt = true) (body : List Byte) :
    mgmtArrival (putU8 code ++ putU8 rt ++ body)
      = .command ((decodeRequest code rt body).getD (.unknownRequest code rt body)) := by
  simp only [isU8, decide_eq_true_eq] at c r
  have code' : (BitVec.ofNat 8 code).toNat = code := by simp [Nat.mod_eq_of_lt c]
  have rt' : (BitVec.ofNat 8 rt).toNat = rt := by simp [Nat.mod_eq_of_lt r]
  simp only [putU8, List.cons_append, List.nil_append, mgmtArrival, code', rt']

/-- The code and the tag of a well-formed request fit a byte each, and its body the rest of a payload. -/
theorem request_fits {i : Instr} {code rt : Nat} {body : List Byte} (formed : i.wellFormed = true)
    (spelled : encodeRequest i = some (code, rt, body)) : isU8 code = true ∧ isU8 rt = true ∧ body.length ≤ 238 := by
  cases i
  case writeCal =>
    cases spelled
    simp only [Instr.wellFormed, CalBody.wellFormed, Bool.and_eq_true, decide_eq_true_eq] at formed
    refine ⟨rfl, by simp [formed], ?_⟩
    simp
    omega
  case writeProfile =>
    cases spelled
    simp only [Instr.wellFormed, ProfileBody.wellFormed, Bool.and_eq_true, decide_eq_true_eq] at formed
    refine ⟨rfl, by simp [formed], ?_⟩
    simp
    omega
  case unknownRequest =>
    cases spelled
    simp only [Instr.wellFormed, Bool.and_eq_true, decide_eq_true_eq] at formed
    exact ⟨formed.1.1.1, formed.1.1.2, formed.1.2⟩
  all_goals cases spelled
  all_goals
    simp only [Instr.wellFormed, Bool.and_eq_true] at formed
    exact ⟨rfl, by simp [formed], by simp⟩

/-- The MGMT frame of a well-formed request, listed or not, is that request. -/
theorem arrival_request (defined : Nat → Bool) {i : Instr} {code rt : Nat} {body : List Byte} (formed : i.wellFormed = true)
    (spelled : encodeRequest i = some (code, rt, body)) :
    arrivalOf defined .crib (buildFrame .crib 0 .crib 1 0x04 (putU8 code ++ putU8 rt ++ body)) = .command i := by
  obtain ⟨c, r, short⟩ := request_fits formed spelled
  rw [arrival_mgmt defined (by simp; omega), mgmtArrival_request c r]
  by_cases unknown : ∃ code rt body, i = .unknownRequest code rt body
  · obtain ⟨code', rt', body', rfl⟩ := unknown
    cases spelled
    rw [Requests.decodeRequest_of_wellFormed formed]
    rfl
  · push Not at unknown
    have listed := (Requests.listedRequest_iff i).2 ⟨by simp [spelled], unknown⟩
    rw [decodeRequest_encodeRequest formed listed spelled]
    rfl

theorem encodeFrame_of_request {i : Instr} {code rt : Nat} {body : List Byte} (spelled : encodeRequest i = some (code, rt, body)) :
    encodeFrame i = some (.crib, buildFrame .crib 0 .crib 1 0x04 (putU8 code ++ putU8 rt ++ body)) := by
  cases i
  all_goals cases spelled
  all_goals rfl

/-- The command of a well-formed frame that is no request, each kind by its payload. -/
theorem arrivalOf_unspelled {i : Instr} {port : Port} {bytes : Frame} (defined : Nat → Bool) (formed : i.wellFormed = true)
    (spelled : encodeRequest i = none) (carried : encodeFrame i = some (port, bytes))
    (asks : ∀ m p, i = .dataRequest m p → defined m = true) (reports : ∀ m u, i = .usage m u → defined m = true) :
    arrivalOf defined port bytes = .command i := by
  cases i
  case contact h g tag =>
    cases carried
    rw [arrival_gauge defined h (by simp), putGauge_eq, List.cons_append, gaugeArrival_contact rfl]
    exact wholly_reads (reads_contact formed tag) _
  case sample h g =>
    cases carried
    rw [arrival_gauge defined h (by simp), putGauge_eq, gaugeArrival_sample rfl]
    exact wholly_reads (reads_gauge formed) _
  case release h g =>
    cases carried
    rw [arrival_gauge defined h (by simp), putGauge_eq, gaugeArrival_release rfl]
    exact wholly_reads (reads_gauge formed) _
  case issue c tag m p =>
    cases carried
    simp only [Instr.wellFormed, Bool.and_eq_true] at formed
    rw [arrival_tag defined c (by simp)]
    exact (tagArrival_issue rfl c _).trans (wholly_reads (reads_issue formed.1 formed.2 tag) _)
  case returnHolder c tag =>
    cases carried
    rw [arrival_tag defined c (by simp)]
    refine (tagArrival_return rfl c _).trans (wholly_reads (fun rest => getTag_putTag tag rest) _)
  case dataRequest m p =>
    cases carried
    simp only [Instr.wellFormed, isStation, Bool.and_eq_true, decide_eq_true_eq] at formed
    rw [arrivalOf_toPart defined .hall (by omega) rfl (by simp), arrivalForPart, if_pos (asks m p rfl)]
    have pocket : (BitVec.ofNat 8 p).toNat = p := by simp [Nat.mod_eq_of_lt (show p < 256 by omega)]
    simp only [putU8, dataRequestArrival, pocket]
    exact if_pos formed.2
  case usage m u =>
    cases carried
    simp only [Instr.wellFormed, isStation, Bool.and_eq_true, decide_eq_true_eq] at formed
    rw [arrivalOf_toPart defined .hall (by omega) rfl (by simp), arrivalForPart, if_pos (reports m u rfl), usageArrival_eq]
    exact wholly_reads (reads_usage formed.2) _
  case general p dst src payload =>
    cases carried
    simp only [Instr.wellFormed, isStation, Bool.and_eq_true, decide_eq_true_eq] at formed
    rw [arrivalOf_buildFrame defined _ _ (by omega) (by omega) rfl (by omega)]
    unfold arrivalByDestination
    rw [if_neg (by omega), if_neg (by cases port <;> decide)]
  case toolData m src payload =>
    cases carried
    simp only [Instr.wellFormed, isStation, Bool.and_eq_true, decide_eq_true_eq] at formed
    rw [arrivalOf_buildFrame defined _ _ (by omega) (by omega) rfl (by omega)]
    unfold arrivalByDestination
    rw [if_neg (by omega), if_neg (by decide)]
  all_goals cases carried
  all_goals cases spelled

/-- The command of a well-formed frame, a request or another kind. -/
theorem arrivalOf_encodeFrame {i : Instr} {port : Port} {bytes : Frame} (defined : Nat → Bool) (formed : i.wellFormed = true)
    (carried : encodeFrame i = some (port, bytes)) (asks : ∀ m p, i = .dataRequest m p → defined m = true)
    (reports : ∀ m u, i = .usage m u → defined m = true) : arrivalOf defined port bytes = .command i := by
  cases spelled : encodeRequest i with
  | some request =>
    obtain ⟨code, rt, body⟩ := request
    rw [encodeFrame_of_request spelled] at carried
    cases carried
    exact arrival_request defined formed spelled
  | none => exact arrivalOf_unspelled defined formed spelled carried asks reports
/-- Settles O8: `arrivalOf_encodeFrame`, and each frame by the encoder. -/
theorem framesDecodeToTheirCommands : Obligations.FramesDecodeToTheirCommands := by
  refine ⟨fun i port bytes defined formed carried asks reports => arrivalOf_encodeFrame defined formed carried asks reports,
    fun h g tag => ?_, fun h g => ?_, fun h g => ?_, fun c tag m p => ?_, fun c tag => ?_, fun _ _ => rfl, fun _ _ => rfl,
    fun _ _ _ => ⟨rfl, rfl⟩, fun _ _ _ => rfl, fun i code rt body listed spelled => ?_⟩
  · rw [Nat.add_comm]; rfl
  · rw [Nat.add_comm]; rfl
  · rw [Nat.add_comm]; rfl
  · rw [Nat.add_comm]; rfl
  · rw [Nat.add_comm]; rfl
  · exact encodeFrame_of_request spelled

end Sys2Proof.Arrivals

/-! PROOFS. The arrival of frames that no consumer gets, and of frames whole or in pieces (R160 to R165). -/

namespace Sys2Proof.Dropped

open Sys2Proof Sys2Proof.Machine Sys2Proof.Encodings Sys2Proof.Arrivals

/-! ## Reception (R165) -/

/-- Bytes that continue a reception, or begin one with a start delimiter, are received. -/
theorem receivedOn_begun {x : PortState} {piece : List Byte} (begun : x.receiving ≠ [] ∨ piece.head? = some 0xA5) :
    receivedOn x piece = x.receiving ++ piece := by
  by_cases idle : x.receiving = []
  · rcases begun with busy | delimiter
    · exact absurd idle busy
    · obtain ⟨rest, rfl⟩ := List.head?_eq_some_iff.1 delimiter
      rw [idle]
      exact receivedOn_delimiter x rest idle
  · exact receivedOn_started x piece idle

theorem exec_frameArrival_noise {port : Port} {s : State} {bytes : List Byte} (idle : (portAt s port).receiving = [])
    (noise : 0xA5 ∉ bytes) (ended : Bool) : exec (.frameArrival port ⟨bytes, ended⟩) s = .next s := by
  have arm : exec (.frameArrival port ⟨bytes, ended⟩) s = execFrameArrival port ⟨bytes, ended⟩ s := rfl
  rw [arm, execFrameArrival, receivedOn_noise _ _ idle noise]
  split <;> rfl

theorem exec_frameArrival_ended {port : Port} {s : State} {piece : List Byte} (released : s.resetPin = false)
    (begun : (portAt s port).receiving ≠ [] ∨ piece.head? = some 0xA5) :
    exec (.frameArrival port ⟨piece, true⟩) s = arrive port ((portAt s port).receiving ++ piece) s := by
  have received := receivedOn_begun begun
  have some_ : receivedOn (portAt s port) piece ≠ [] := by
    rw [received]
    intro empty
    obtain ⟨busy, nothing⟩ := List.append_eq_nil_iff.1 empty
    subst nothing
    exact begun.elim (absurd busy) (by simp)
  have arm : exec (.frameArrival port ⟨piece, true⟩) s = execFrameArrival port ⟨piece, true⟩ s := rfl
  rw [arm, execFrameArrival_ended port piece s released some_, received]

theorem arrive_counted {port : Port} {frame : Frame} {s : State} {c : LineCounter} (released : s.resetPin = false)
    (counted : arrivalOf (machineDefined s) port frame = .counted c) :
    arrive port frame s = .next (grants (countLine port c (heard port s))) := by
  rw [arrive, counted]
  exact congrArg _ (onArrival_released port _ s released)

theorem arrive_ignored {port : Port} {frame : Frame} {s : State} (released : s.resetPin = false)
    (ignored : arrivalOf (machineDefined s) port frame = .ignored) : arrive port frame s = .next (grants (heard port s)) := by
  rw [arrive, ignored]
  exact congrArg _ (onArrival_released port id s released)

theorem countLine_heard (port : Port) (c : LineCounter) (s : State) :
    countLine port c (heard port s) = putPort port
      (let x := portAt s port
       if c = .checkError then { x with receiving := [], checkError := min (x.checkError + 1) 65535 }
       else if c = .malformed then { x with receiving := [], malformed := min (x.malformed + 1) 65535 }
       else if c = .sourceRefused then { x with receiving := [], sourceRefused := min (x.sourceRefused + 1) 65535 }
       else { x with receiving := [], kindRefused := min (x.kindRefused + 1) 65535 }) s := by
  cases port <;> cases c <;> rfl

/-! ## The stages (R160 to R164) -/

theorem arrivalOf_short {bytes : Frame} (short : bytes.length < 7) (defined : Nat → Bool) (port : Port) :
    arrivalOf defined port bytes = .counted .checkError := by
  unfold arrivalOf
  split
  next rest =>
    simp only [List.length_cons] at short
    exact if_pos (by omega)
  next => rfl

theorem arrivalOf_wrongCheck {d a b : Byte} {covered : List Byte} (wrong : [a, b] ≠ checkField covered) (defined : Nat → Bool)
    (port : Port) : arrivalOf defined port (d :: covered ++ [a, b]) = .counted .checkError := by
  match covered with
  | dst :: src :: kind :: len :: payload =>
    simp only [List.cons_append, arrivalOf, List.length_append, List.length_cons, List.length_nil]
    rw [if_neg (by omega), Nat.add_sub_cancel, List.take_left' rfl, List.drop_left' rfl, if_pos wrong.symm]
  | [] | [_] | [_, _] | [_, _, _] => exact arrivalOf_short (by simp) defined port

theorem headerSegment_eq_iff (b : Byte) (p : Port) : headerSegment b = p ↔ decide (128 ≤ b.toNat) = decide (p = .hall) := by
  rw [headerSegment, BitVec.msb_eq_decide]
  cases p <;> simp

theorem frameKind?_isSome_iff (n : Nat) : (frameKind? n).isSome = true ↔ n ∈ [1, 2, 3, 4, 5, 6, 7, 8, 9, 15] := by
  unfold frameKind?
  split <;> simp_all

/-- The header checks of R161, read off the bytes. -/
def HeaderPasses (port : Port) (dst src kind len : Byte) (payload : List Byte) : Prop :=
  len.toNat ≤ 240 ∧ payload.length = len.toNat ∧ dst.toNat % 128 < 32 ∧ src.toNat % 128 < 32
    ∧ decide (128 ≤ src.toNat) = decide (port = .hall) ∧ kind.toNat ∈ [1, 2, 3, 4, 5, 6, 7, 8, 9, 15]

theorem frameKind?_eq_some {n : Nat} {k : FrameKind} : frameKind? n = some k ↔ frameKindCode k = n := by
  constructor
  · intro is
    unfold frameKind? at is
    split at is
    all_goals cases is
    all_goals rfl
  · rintro rfl
    cases k <;> rfl

theorem arrivalOf_malformed {port : Port} {dst src kind len : Byte} {payload : List Byte}
    (fails : ¬HeaderPasses port dst src kind len payload) (defined : Nat → Bool) (d : Byte) :
    arrivalOf defined port (d :: (dst :: src :: kind :: len :: payload) ++ checkField (dst :: src :: kind :: len :: payload))
      = .counted .malformed := by
  rw [arrivalOf_checked]
  split
  next => rfl
  next passes =>
    push Not at passes
    obtain ⟨length, matches_, clearDst, clearSrc, segment⟩ := passes
    simp only [headerClear, ne_eq, Bool.not_eq_false, decide_eq_true_eq] at clearDst clearSrc
    cases is : frameKind? kind.toNat with
    | none => rfl
    | some k =>
      have listed := (frameKind?_isSome_iff kind.toNat).1 (by rw [is]; rfl)
      exact absurd ⟨length, matches_, clearDst, clearSrc, (headerSegment_eq_iff src port).1 segment, listed⟩ fails

/-- A frame that passes the header goes by its kind and destination. -/
theorem arrivalOf_header {port : Port} {dst src kind len : Byte} {payload : List Byte}
    (passes : HeaderPasses port dst src kind len payload) (defined : Nat → Bool) (d : Byte) :
    ∃ k, frameKindCode k = kind.toNat ∧ arrivalOf defined port
        (d :: (dst :: src :: kind :: len :: payload) ++ checkField (dst :: src :: kind :: len :: payload))
      = arrivalByDestination defined port (headerSegment dst) (headerNode dst) (headerNode src) k payload := by
  obtain ⟨length, matches_, clearDst, clearSrc, segment, listed⟩ := passes
  obtain ⟨k, is⟩ := Option.isSome_iff_exists.1 ((frameKind?_isSome_iff kind.toNat).2 listed)
  refine ⟨k, frameKind?_eq_some.1 is, ?_⟩
  rw [arrivalOf_checked, is, if_neg]
  · rfl
  · simp only [headerClear, decide_eq_false_iff_not, not_or, not_not]
    exact ⟨by omega, matches_, clearDst, clearSrc, (headerSegment_eq_iff src port).2 segment⟩

/-! ## What a reader takes -/

/-- The reader takes exactly `n` bytes. -/
def Takes {α : Type} (get : Reader α) (n : Nat) : Prop := ∀ bs a rest, get bs = some (a, rest) → bs.length = n + rest.length

theorem takes_U8 : Takes getU8 1 := by
  intro bs a rest read
  cases bs <;> cases read
  rw [List.length_cons, Nat.add_comm]

theorem takes_U16 : Takes getU16 2 := by
  intro bs a rest read
  match bs with
  | _ :: _ :: _ => cases read; simp only [List.length_cons]; omega
  | [_] | [] => cases read

theorem takes_word : Takes getWord 4 := by
  intro bs a rest read
  match bs with
  | _ :: _ :: _ :: _ :: _ => cases read; simp only [List.length_cons]; omega
  | [_, _, _] | [_, _] | [_] | [] => cases read

theorem takes_I32 : Takes getI32 4 := by
  intro bs x rest read
  simp only [getI32, Option.bind_eq_bind, Option.bind_eq_some_iff, Prod.exists] at read
  obtain ⟨_, _, a, done⟩ := read
  cases done
  have := takes_word _ _ _ a
  omega

theorem takes_tag : Takes getTag 8 := by
  intro bs x rest read
  simp only [getTag, Option.bind_eq_bind, Option.bind_eq_some_iff, Prod.exists] at read
  obtain ⟨_, _, a, _, _, b, done⟩ := read
  cases done
  have := takes_word _ _ _ a
  have := takes_word _ _ _ b
  omega

theorem takes_gauge : Takes getGauge 12 := by
  intro bs x rest read
  simp only [getGauge, Option.bind_eq_bind, Option.bind_eq_some_iff, Prod.exists] at read
  obtain ⟨_, _, a, _, _, b, _, _, c, _, _, d, _, _, e, _, _, f, _, _, g, done⟩ := read
  cases done
  have := takes_U8 _ _ _ a
  have := takes_U8 _ _ _ b
  have := takes_U8 _ _ _ c
  have := takes_I32 _ _ _ d
  have := takes_U16 _ _ _ e
  have := takes_U16 _ _ _ f
  have := takes_U8 _ _ _ g
  omega

theorem takes_contact : Takes getContact 20 := by
  intro bs x rest read
  simp only [getContact, Option.bind_eq_bind, Option.bind_eq_some_iff, Prod.exists] at read
  obtain ⟨_, _, a, _, _, b, done⟩ := read
  cases done
  have := takes_gauge _ _ _ a
  have := takes_tag _ _ _ b
  omega

theorem takes_issue : Takes getIssue 10 := by
  intro bs x rest read
  simp only [getIssue, Option.bind_eq_bind, Option.bind_eq_some_iff, Prod.exists] at read
  obtain ⟨_, _, a, _, _, b, _, _, c, done⟩ := read
  cases done
  have := takes_tag _ _ _ a
  have := takes_U8 _ _ _ b
  have := takes_U8 _ _ _ c
  omega

theorem takes_usage : Takes getUsage 14 := by
  intro bs x rest read
  simp only [getUsage, Option.bind_eq_bind, Option.bind_eq_some_iff, Prod.exists] at read
  obtain ⟨_, _, a, _, _, b, _, _, c, _, _, d, _, _, e, _, _, f, done⟩ := read
  cases done
  have := takes_U8 _ _ _ a
  have := takes_U16 _ _ _ b
  have := takes_U16 _ _ _ c
  have := takes_I32 _ _ _ d
  have := takes_I32 _ _ _ e
  have := takes_U8 _ _ _ f
  omega

theorem wholly_malformed {α : Type} {get : Reader α} {n : Nat} (takes : Takes get n) (command : α → Instr)
    {payload : List Byte} (other : payload.length ≠ n) : wholly get command payload = .counted .malformed := by
  rw [wholly]
  cases read : readAll get payload with
  | none => rfl
  | some a => exact absurd (takes payload a [] (readAll_some read)) other

/-! ## Payloads of no form (R164) -/

theorem gaugeArrival_malformed {payload : List Byte}
    (contact : ¬(payload.head?.map (·.toNat) = some 0 ∧ payload.length = 21))
    (other : ¬((payload.head?.map (·.toNat) = some 1 ∨ payload.head?.map (·.toNat) = some 2) ∧ payload.length = 13))
    (h : Fin 4) : gaugeArrival h payload = .counted .malformed := by
  match payload with
  | [] => rfl
  | kind :: rest =>
    simp only [List.head?_cons, Option.map_some, Option.some.injEq, List.length_cons] at contact other
    rcases Nat.lt_or_ge 2 kind.toNat with above | below
    · exact gaugeArrival_unknown above h rest
    · have cases_ : kind.toNat = 0 ∨ kind.toNat = 1 ∨ kind.toNat = 2 := by omega
      rcases cases_ with is | is | is
      · rw [gaugeArrival_contact is]
        exact wholly_malformed takes_contact _ (by omega)
      · rw [gaugeArrival_sample is]
        exact wholly_malformed takes_gauge _ (by omega)
      · rw [gaugeArrival_release is]
        exact wholly_malformed takes_gauge _ (by omega)

theorem tagArrival_malformed {payload : List Byte}
    (issue : ¬(payload.head?.map (·.toNat) = some 1 ∧ payload.length = 11))
    (return_ : ¬(payload.head?.map (·.toNat) = some 2 ∧ payload.length = 9)) (c : Fin 4) :
    tagArrival c payload = .counted .malformed := by
  match payload with
  | [] => rfl
  | action :: rest =>
    simp only [List.head?_cons, Option.map_some, Option.some.injEq, List.length_cons] at issue return_
    by_cases one : action.toNat = 1
    · rw [tagArrival_issue one]
      exact wholly_malformed takes_issue _ (by omega)
    · by_cases two : action.toNat = 2
      · rw [tagArrival_return two]
        exact wholly_malformed takes_tag _ (by omega)
      · exact tagArrival_unknown one two c rest

theorem mgmtArrival_malformed {payload : List Byte} (short : payload.length < 2) :
    mgmtArrival payload = .counted .malformed := by
  match payload with
  | [] | [_] => rfl
  | _ :: _ :: _ => simp only [List.length_cons] at short; omega

theorem dataRequestArrival_malformed {payload : List Byte}
    (fails : ¬(payload.length = 1 ∧ ∃ p, payload.head?.map (·.toNat) = some p ∧ 1 ≤ p ∧ p ≤ 240)) (m : Nat) :
    dataRequestArrival m payload = .counted .malformed := by
  match payload with
  | [] | _ :: _ :: _ => rfl
  | [p] =>
    refine if_neg fun range => fails ⟨rfl, p.toNat, rfl, range⟩

theorem usageArrival_malformed {payload : List Byte} (other : payload.length ≠ 14) (m : Nat) :
    usageArrival m payload = .counted .malformed := by
  rw [usageArrival_eq]
  exact wholly_malformed takes_usage _ other

/-! ## Destinations (R162, R163) -/

theorem arrivalByDestination_local {port seg : Port} {dst : Nat} (other : dst ≠ 0) (same : seg = port)
    (defined : Nat → Bool) (src : Nat) (k : FrameKind) (payload : List Byte) :
    arrivalByDestination defined port seg dst src k payload = .ignored := by
  unfold arrivalByDestination
  rw [if_neg other, if_pos same]

theorem arrivalByDestination_part (defined : Nat → Bool) (port seg : Port) (src : Nat) (k : FrameKind)
    (payload : List Byte) :
    arrivalByDestination defined port seg 0 src k payload = arrivalForPart defined port k src payload := by
  unfold arrivalByDestination
  exact if_pos rfl

/-- Toward the other segment GENERAL passes from either port, TOOL_DATA from the crib alone. -/
theorem arrivalByDestination_across {port seg : Port} {dst : Nat} (other : dst ≠ 0) (across : seg ≠ port)
    (defined : Nat → Bool) (src : Nat) (k : FrameKind) (payload : List Byte) :
    (frameKindCode k = 15 → arrivalByDestination defined port seg dst src k payload = .command (.general port dst src payload))
      ∧ (port = .crib → frameKindCode k = 8 →
        arrivalByDestination defined port seg dst src k payload = .command (.toolData dst src payload))
      ∧ (frameKindCode k ≠ 15 → ¬(port = .crib ∧ frameKindCode k = 8) →
        arrivalByDestination defined port seg dst src k payload = .counted .kindRefused) := by
  unfold arrivalByDestination
  rw [if_neg other, if_neg across]
  cases port <;> cases k <;> simp [frameKindCode]

/-- What the part takes on the crib port: GAUGE, TAG and MGMT, each from its nodes. -/
theorem arrivalForPart_crib (defined : Nat → Bool) (k : FrameKind) (src : Nat) (payload : List Byte) :
    (frameKindCode k ≠ 1 → frameKindCode k ≠ 2 → frameKindCode k ≠ 4 →
        arrivalForPart defined .crib k src payload = .counted .kindRefused)
      ∧ (frameKindCode k = 1 → ¬(2 ≤ src ∧ src ≤ 5) → arrivalForPart defined .crib k src payload = .counted .sourceRefused)
      ∧ (frameKindCode k = 2 → ¬(6 ≤ src ∧ src ≤ 9) → arrivalForPart defined .crib k src payload = .counted .sourceRefused)
      ∧ (frameKindCode k = 4 → src ≠ 1 → arrivalForPart defined .crib k src payload = .counted .sourceRefused) := by
  cases k
  case gauge => exact ⟨fun no => absurd rfl no, fun _ no => dif_neg no, nofun, nofun⟩
  case tag => exact ⟨fun _ no => absurd rfl no, nofun, fun _ no => dif_neg no, nofun⟩
  case mgmt => exact ⟨fun _ _ no => absurd rfl no, nofun, nofun, fun _ no => if_neg no⟩
  all_goals exact ⟨fun _ _ _ => rfl, nofun, nofun, nofun⟩

/-- What the part takes on the hall port: DATA_REQUEST and USAGE, from defined machines. -/
theorem arrivalForPart_hall (defined : Nat → Bool) (k : FrameKind) (src : Nat) (payload : List Byte) :
    (frameKindCode k ≠ 7 → frameKindCode k ≠ 9 → arrivalForPart defined .hall k src payload = .counted .kindRefused)
      ∧ (frameKindCode k = 7 ∨ frameKindCode k = 9 → defined src = false →
        arrivalForPart defined .hall k src payload = .counted .sourceRefused) := by
  cases k
  case dataRequest => exact ⟨fun no => absurd rfl no, fun _ un => if_neg (by simp [un])⟩
  case usage => exact ⟨fun _ no => absurd rfl no, fun _ un => if_neg (by simp [un])⟩
  all_goals exact ⟨fun _ _ => rfl, by simp [frameKindCode]⟩

/-- Payloads of no form of their kind, from the kind's own nodes. -/
theorem arrivalForPart_malformed (defined : Nat → Bool) (k : FrameKind) (src : Nat) (payload : List Byte) :
    let first := payload.head?.map (·.toNat)
    (frameKindCode k = 1 → 2 ≤ src → src ≤ 5 → ¬(first = some 0 ∧ payload.length = 21) →
        ¬((first = some 1 ∨ first = some 2) ∧ payload.length = 13) →
        arrivalForPart defined .crib k src payload = .counted .malformed)
      ∧ (frameKindCode k = 2 → 6 ≤ src → src ≤ 9 → ¬(first = some 1 ∧ payload.length = 11) →
        ¬(first = some 2 ∧ payload.length = 9) → arrivalForPart defined .crib k src payload = .counted .malformed)
      ∧ (frameKindCode k = 4 → src = 1 → payload.length < 2 →
        arrivalForPart defined .crib k src payload = .counted .malformed)
      ∧ (frameKindCode k = 7 → defined src = true → ¬(payload.length = 1 ∧ ∃ p, first = some p ∧ 1 ≤ p ∧ p ≤ 240) →
        arrivalForPart defined .hall k src payload = .counted .malformed)
      ∧ (frameKindCode k = 9 → defined src = true → payload.length ≠ 14 →
        arrivalForPart defined .hall k src payload = .counted .malformed) := by
  dsimp only
  cases k
  case gauge =>
    refine ⟨fun _ low high contact other => ?_, nofun, nofun, nofun, nofun⟩
    exact (dif_pos ⟨low, high⟩).trans (gaugeArrival_malformed contact other _)
  case tag =>
    refine ⟨nofun, fun _ low high issue return_ => ?_, nofun, nofun, nofun⟩
    exact (dif_pos ⟨low, high⟩).trans (tagArrival_malformed issue return_ _)
  case mgmt => exact ⟨nofun, nofun, fun _ is short => (if_pos is).trans (mgmtArrival_malformed short), nofun, nofun⟩
  case dataRequest =>
    exact ⟨nofun, nofun, nofun, fun _ is fails => (if_pos is).trans (dataRequestArrival_malformed fails src), nofun⟩
  case usage =>
    exact ⟨nofun, nofun, nofun, nofun, fun _ is other => (if_pos is).trans (usageArrival_malformed other src)⟩
  all_goals exact ⟨nofun, nofun, nofun, nofun, nofun⟩

/-- Settles O10: reception, the length and check stages, and the header's stages on a frame whose check agrees. -/
theorem droppedFramesAreCounted : Obligations.DroppedFramesAreCounted := by
  refine ⟨fun port s bytes ended idle noise => exec_frameArrival_noise idle noise ended,
    fun port s piece frame released is begun => ⟨fun c counted => ?_, fun ignored => ?_⟩,
    fun defined port bytes => ⟨fun short => arrivalOf_short short defined port, fun d a b covered is wrong => ?_⟩,
    fun defined port dst src kind len payload => ⟨fun fails => arrivalOf_malformed fails defined 0xA5, ?_, ?_, ?_⟩⟩
  · subst is
    rw [exec_frameArrival_ended released begun, arrive_counted released counted, countLine_heard]
  · subst is
    rw [exec_frameArrival_ended released begun, arrive_ignored released ignored]
  · rw [is]
    exact arrivalOf_wrongCheck wrong defined port
  · intro passes other local_
    obtain ⟨k, code, arrives⟩ := arrivalOf_header passes defined 0xA5
    exact arrives.trans (arrivalByDestination_local other ((headerSegment_eq_iff dst port).2 local_) _ _ _ _)
  · intro passes other across
    obtain ⟨k, code, arrives⟩ := arrivalOf_header passes defined 0xA5
    dsimp only
    rw [arrives, ← code]
    exact arrivalByDestination_across other (fun same => across ((headerSegment_eq_iff dst port).1 same)) _ _ _ _
  · intro passes toPart
    obtain ⟨k, code, arrives⟩ := arrivalOf_header passes defined 0xA5
    dsimp only at toPart ⊢
    have part : headerNode dst = 0 := toPart
    rw [arrives, ← code, part, arrivalByDestination_part]
    obtain ⟨kindCrib, gauge, tag, mgmt⟩ := arrivalForPart_crib defined k (headerNode src) payload
    obtain ⟨kindHall, source⟩ := arrivalForPart_hall defined k (headerNode src) payload
    obtain ⟨gauge', tag', mgmt', data', usage'⟩ := arrivalForPart_malformed defined k (headerNode src) payload
    refine ⟨?_, ?_, ?_, ?_, ?_, ?_, ?_, ?_, ?_, ?_, ?_⟩
    all_goals rintro rfl
    · exact kindCrib
    · exact kindHall
    · exact gauge
    · exact tag
    · exact mgmt
    · exact source
    · exact gauge'
    · exact tag'
    · exact mgmt'
    · exact data'
    · exact usage'

end Sys2Proof.Dropped

/-! PROOFS. The arrival of a command's frame, whole and in two pieces (R165). -/

namespace Sys2Proof.Pieces

open Sys2Proof Sys2Proof.Machine Sys2Proof.Arrivals Sys2Proof.Dropped

/-- The command is a frame event of the port. -/
def ArrivesOn (port : Port) (i : Instr) : Prop := ∃ effect, ∀ s, exec i s = .next (onArrival port effect s)

theorem onRequest_arrives (take : State → State) : ∃ effect, ∀ s, onRequest take s = onArrival .crib effect s :=
  ⟨fun s => if answerRoom s then take s else { s with mgmtDropped := tally s.mgmtDropped }, fun _ => rfl⟩

theorem openRequest_arrives (code rt : Nat) (owner : State → Taken) :
    ∃ effect, ∀ s, openRequest code rt owner s = onArrival .crib effect s :=
  onRequest_arrives fun s => reply code rt (owner s).status (owner s).body (owner s).state

theorem tableRequest_arrives (code rt : Nat) (owner : State → Taken) :
    ∃ effect, ∀ s, tableRequest code rt owner s = onArrival .crib effect s :=
  onRequest_arrives fun s =>
    if protectionPasses s then
      reply code rt (owner s).status (owner s).body
        (if (owner s).changed then advanceGeneration (owner s).state else (owner s).state)
    else reply code rt .locked .none { s with protectionError := true }

theorem arrivesOn_listed {i : Instr} (listed : listedRequest i = true) : ArrivesOn .crib i := by
  obtain ⟨⟨code, rt, body⟩, spelled⟩ := Option.ne_none_iff_exists'.1 ((Requests.listedRequest_iff i).1 listed).1
  obtain ⟨owner, -, path, -⟩ := Requests.listed_ends listed spelled
  cases path with
  | open_ runs =>
    obtain ⟨effect, arrives⟩ := openRequest_arrives code rt owner
    exact ⟨effect, fun s => (runs s).trans (congrArg _ (arrives s))⟩
  | table runs =>
    obtain ⟨effect, arrives⟩ := tableRequest_arrives code rt owner
    exact ⟨effect, fun s => (runs s).trans (congrArg _ (arrives s))⟩

theorem arrivesOn_unknownRequest (code rt : Nat) (body : List Byte) : ArrivesOn .crib (.unknownRequest code rt body) := by
  cases spells : decodeRequest code rt body with
  | some i =>
    obtain ⟨effect, runs⟩ := arrivesOn_listed (decodeRequest_listed spells)
    exact ⟨effect, fun s => (Requests.exec_unknownRequest_readable spells s).trans (runs s)⟩
  | none =>
    obtain ⟨effect, arrives⟩ := openRequest_arrives code rt fun s => replied s (unreadableStatus code) .none
    exact ⟨effect, fun s => (Requests.exec_unknownRequest_unreadable spells s).trans (congrArg _ (arrives s))⟩

theorem listed_of_spelled {i : Instr} {request : Nat × Nat × List Byte} (spelled : encodeRequest i = some request) :
    listedRequest i = true ∨ ∃ code rt body, i = .unknownRequest code rt body := by
  by_cases unknown : ∃ code rt body, i = .unknownRequest code rt body
  · exact .inr unknown
  · push Not at unknown
    exact .inl ((Requests.listedRequest_iff i).2 ⟨by simp [spelled], unknown⟩)

/-- A command that a frame carries is a frame event of the frame's port, and its consumer runs it. -/
theorem arrivesOn_encodeFrame {i : Instr} {port : Port} {frame : Frame} (carried : encodeFrame i = some (port, frame)) :
    ArrivesOn port i ∧ ∀ s, runArrival i s = exec i s := by
  cases spelled : encodeRequest i with
  | some request =>
    obtain ⟨code, rt, body⟩ := request
    rw [encodeFrame_of_request spelled] at carried
    cases carried
    rcases listed_of_spelled spelled with listed | ⟨code', rt', body', rfl⟩
    · exact ⟨arrivesOn_listed listed, Transitions.runArrival_listed listed⟩
    · exact ⟨arrivesOn_unknownRequest _ _ _, fun _ => rfl⟩
  | none =>
    cases i
    case contact | sample | release | issue | returnHolder | dataRequest | usage | general | toolData =>
      cases carried
      exact ⟨⟨_, fun s => rfl⟩, fun s => rfl⟩
    all_goals cases carried
    all_goals cases spelled

theorem fromMachine_undefined {s : State} {m : Nat} (undefined : machineDefined s m = false) (effect : State → State) :
    fromMachine m effect s = onArrival .hall (countLine .hall .sourceRefused) s := by
  cases pin : s.resetPin with
  | true => rw [fromMachine, onArrival_reset _ _ s pin, onArrival_reset _ _ s pin]
  | false =>
    rw [fromMachine, onArrival_released _ _ s pin, onArrival_released _ _ s pin]
    have heard_ : machineDefined (heard .hall s) m = false := undefined
    rw [heard_, if_neg (by decide)]

/-- A frame from a machine that is not defined meets the source check, as its command's row does (log 16). -/
theorem arrive_undefined {i : Instr} {port : Port} {frame : Frame} {m : Nat} (formed : i.wellFormed = true)
    (carried : encodeFrame i = some (port, frame)) (from_ : (∃ p, i = .dataRequest m p) ∨ ∃ u, i = .usage m u) {s : State}
    (undefined : machineDefined s m = false) : arrive port frame s = exec i s := by
  have source := fun k code payload => (arrivalForPart_hall (machineDefined s) k m payload).2 code undefined
  rcases from_ with ⟨p, rfl⟩ | ⟨u, rfl⟩
  all_goals
    simp only [Instr.wellFormed, isStation, Bool.and_eq_true, decide_eq_true_eq] at formed
    cases carried
  · rw [arrive, arrivalOf_toPart _ .hall (by omega) rfl (by simp), source .dataRequest (.inl rfl)]
    exact congrArg _ (fromMachine_undefined undefined _).symm
  · rw [arrive, arrivalOf_toPart _ .hall (by omega) rfl (by simp), source .usage (.inr rfl)]
    exact congrArg _ (fromMachine_undefined undefined _).symm

/-- The whole frame of a command is that command. -/
theorem arrive_encodeFrame {i : Instr} {port : Port} {frame : Frame} (formed : i.wellFormed = true)
    (carried : encodeFrame i = some (port, frame)) (s : State) : arrive port frame s = exec i s := by
  by_cases undefined : ∃ m, ((∃ p, i = .dataRequest m p) ∨ ∃ u, i = .usage m u) ∧ machineDefined s m = false
  · obtain ⟨m, from_, undefined⟩ := undefined
    exact arrive_undefined formed carried from_ undefined
  · push Not at undefined
    have arrives : arrivalOf (machineDefined s) port frame = .command i :=
      arrivalOf_encodeFrame _ formed carried (fun m p is => by simpa using undefined m (.inl ⟨p, is⟩))
        fun m u is => by simpa using undefined m (.inr ⟨u, is⟩)
    rw [arrive, arrives]
    exact (arrivesOn_encodeFrame carried).2 s

/-- A frame event does not see what the port had received before. -/
theorem exec_receiving {i : Instr} {port : Port} (arrives : ArrivesOn port i) (s : State) (bytes : List Byte) :
    s.resetPin = false → exec i (putPort port { portAt s port with receiving := bytes } s) = exec i s := by
  obtain ⟨effect, runs⟩ := arrives
  intro released
  rw [runs, runs, onArrival_released _ _ s released, onArrival_released]
  · cases port <;> rfl
  · cases port <;> exact released

theorem encodeFrame_delimiter {i : Instr} {port : Port} {frame : Frame} (carried : encodeFrame i = some (port, frame)) :
    ∃ rest, frame = 0xA5 :: rest := by
  have built : ∀ dstSeg dst srcSeg src kind payload, ∃ rest, buildFrame dstSeg dst srcSeg src kind payload = 0xA5 :: rest :=
    fun _ _ _ _ _ _ => ⟨_, rfl⟩
  cases i
  all_goals cases carried
  all_goals exact built _ _ _ _ _ _

/-- The first piece of a frame that begins with the start delimiter is kept whole. -/
theorem receivedOn_first {x : PortState} {first last rest : List Byte} (idle : x.receiving = [])
    (whole : 0xA5 :: rest = first ++ last) : receivedOn x first = first := by
  match first with
  | [] => rw [receivedOn, if_pos idle]; rfl
  | b :: more =>
    rw [List.cons_append] at whole
    obtain ⟨rfl, -⟩ := List.cons.inj whole
    exact receivedOn_delimiter x more idle

/-- Settles O9: the whole frame is its command, and two pieces join to the frame in the port's receive state. -/
theorem frameArrivalRunsItsCommand : Obligations.FrameArrivalRunsItsCommand := by
  intro i port frame s formed carried idle
  obtain ⟨rest, rfl⟩ := encodeFrame_delimiter carried
  obtain ⟨arrives, -⟩ := arrivesOn_encodeFrame carried
  obtain ⟨effect, runs⟩ := id arrives
  refine ⟨⟨_, ?_, runs s⟩, fun first last released whole => ⟨?_, _, ?_, runs s⟩⟩
  · cases pin : s.resetPin with
    | true =>
      have arm : exec (.frameArrival port ⟨0xA5 :: rest, true⟩) s = execFrameArrival port ⟨0xA5 :: rest, true⟩ s := rfl
      rw [arm, execFrameArrival, pin, if_pos rfl, onArrival_reset _ _ s pin]
    | false =>
      rw [exec_frameArrival_ended pin (.inr rfl), idle, List.nil_append, arrive_encodeFrame formed carried, runs]
  · have arm : exec (.frameArrival port ⟨first, false⟩) s = execFrameArrival port ⟨first, false⟩ s := rfl
    rw [arm, execFrameArrival_kept port first s released, receivedOn_first idle whole]
  · have kept : (portAt (putPort port { portAt s port with receiving := first } s) port).receiving = first := by
      cases port <;> rfl
    have begun : first ≠ [] ∨ last.head? = some 0xA5 := by
      by_cases nothing : first = []
      · subst nothing
        rw [List.nil_append] at whole
        rw [← whole]
        exact .inr rfl
      · exact .inl nothing
    rw [exec_frameArrival_ended (by cases port <;> exact released) (by rwa [kept]), kept, ← whole,
      arrive_encodeFrame formed carried, exec_receiving arrives s first released, runs]

end Sys2Proof.Pieces

/-! PROOFS. The read requests (R20, R29, R59, R102, R129, R182, R183). -/

namespace Sys2Proof.Reads_

open Sys2Proof Sys2Proof.Machine

/-! ## Replies that leave the state -/

/-- A taken request whose owner only replies: the reply alone. -/
theorem openRequest_answers {code rt : Nat} {owner : State → Taken} {s : State} {status : Status} {body : ReplyBody}
    (taken : RequestTaken s) (owns : owner (heard .crib s) = replied (heard .crib s) status body) :
    openRequest code rt owner s = grants (answered (.reply code rt status s.generation body) s) :=
  openRequest_replied code rt owner s _ status body taken owns

theorem headNumber?_val (h : Fin 4) : headNumber? h = some h := by
  rw [headNumber?, dif_pos h.isLt]

theorem headNumber?_above {n : Nat} (above : 3 < n) : headNumber? n = none := dif_neg (by omega)

theorem bank?_code (b : Bank) : bank? (if b = .bankA then 0 else 1) = some b := by cases b <;> rfl

theorem bank?_above {code : Nat} (above : 1 < code) : bank? code = none := by
  match code with
  | _ + 2 => rfl

theorem machineAt_outside {m : Nat} (outside : m = 0 ∨ 31 < m) (s : State) : machineAt s m = none := by
  unfold machineAt
  split
  next => exact Vector.getElem?_eq_none (by omega)
  next => rfl

theorem ownReadCal_outside {head code : Nat} (outside : 3 < head ∨ 1 < code) (s : State) :
    ownReadCal head code s = replied s .badIndex .none := by
  unfold ownReadCal
  rcases outside with above | above
  · rw [headNumber?_above above]
  · rw [bank?_above above]
    cases headNumber? head <;> rfl

theorem ownReadProfile_outside {m code : Nat} (outside : m = 0 ∨ 31 < m ∨ 1 < code) (s : State) :
    ownReadProfile m code s = replied s .badIndex .none := by
  unfold ownReadProfile
  rcases or_assoc.2 outside with unlisted | above
  · rw [machineAt_outside unlisted]
  · rw [bank?_above above]
    cases machineAt s m <;> rfl

theorem ownReadPockets_outside {m first count : Nat}
    (outside : m = 0 ∨ 31 < m ∨ first = 0 ∨ 240 < first ∨ count = 0 ∨ 16 < count) (s : State) :
    ownReadPockets m first count s = replied s .badIndex .none := by
  unfold ownReadPockets
  rcases or_assoc.2 outside with unlisted | range
  · rw [machineAt_outside unlisted]
  · cases machineAt s m with
    | none => rfl
    | some x => exact if_pos range

theorem ownReadCal_inside {h : Fin 4} {b : Bank} (s : State) :
    ownReadCal h (if b = .bankA then 0 else 1) s
      = replied s .ok (.calBank h b (calBankOf (headAt s h) b) (calReason (calBankOf (headAt s h) b))
          ((headAt s h).active = b) (headAt s h).pendingCal (headAt s h).status) := by
  unfold ownReadCal
  rw [headNumber?_val, bank?_code]

theorem calBankOf_eq (x : Head) (b : Bank) : calBankOf x b = if b = .bankA then x.bankA else x.bankB := by cases b <;> rfl

theorem ownReadProfile_inside {m : Nat} {b : Bank} {x : MachineDef} {s : State} (is : machineAt s m = some x) :
    ownReadProfile m (if b = .bankA then 0 else 1) s
      = replied s .ok (.profileBank m b (profileOf x b) (profileReason (profileOf x b)) (x.active = b) x.defined x.magazine
          x.push x.paused (x.switch.map fun w => (w.target, w.marked))) := by
  unfold ownReadProfile
  rw [is, bank?_code]

theorem profileOf_eq (x : MachineDef) (b : Bank) : profileOf x b = if b = .bankA then x.bankA else x.bankB := by
  cases b <;> rfl

theorem ownReadPockets_inside {m first count : Nat} {x : MachineDef} {s : State} (is : machineAt s m = some x)
    (low : 1 ≤ first) (high : first ≤ 240) (some_ : 1 ≤ count) (few : count ≤ 16) :
    ownReadPockets m first count s
      = replied s .ok (.pockets m x.defined (if x.defined then x.magazine else 0) (scanPockets s m (241 - first) first count).1
          (if first + (scanPockets s m (241 - first) first count).1 ≤ 240
            then some (first + (scanPockets s m (241 - first) first count).1) else none)
          (scanPockets s m (241 - first) first count).2) := by
  unfold ownReadPockets
  rw [is]
  exact if_neg (by omega)

/-! ## Layouts -/

/-- A head's and a slot's part of READ_STATUS, with the switches, by the fields of R182. -/
theorem statusReport_eq (s : State) : statusReport s =
    { heads := s.heads.toList.map fun x => ⟨x.status, x.active, x.pendingCal⟩
      slots := s.heads.toList.map fun x =>
        match x.slot with
        | .idle => ⟨0, none⟩
        | .armed c => ⟨1, some (c.assembly, c.axis, c.prior, c.bank, c.frames, c.history.length)⟩
        | .latched => ⟨2, none⟩
      sweep := s.sweep
      switches := (List.range 31).filterMap fun i =>
        (machineAt s (i + 1)).bind fun x => x.switch.map fun w => (i + 1, w.target, w.marked)
      protection := s.protection, key := s.key, protectionError := s.protectionError
      generation := s.generation
      queues := [s.cribTransit.length, s.hallTransit.length, s.answers.length, s.notices.length,
        s.waitList.length, s.handoff.length]
      discardedNotices := s.discardedNotices, audit := s.audit.toNat } := by
  have slot : slotReport = fun x : Head =>
      match x.slot with
      | .idle => ⟨0, none⟩
      | .armed c => ⟨1, some (c.assembly, c.axis, c.prior, c.bank, c.frames, c.history.length)⟩
      | .latched => ⟨2, none⟩ := by
    funext x
    unfold slotReport
    cases x.slot <;> rfl
  rw [statusReport, slot]
  rfl

theorem putHeadReport_eq : putHeadReport = fun x : HeadReport =>
    putU8 (headStateCode x.status) ++ putU8 (bankCode x.active) ++ putOption 1 (fun y => putU8 (bankCode y)) x.pendingCal
      ++ putOption 4 (fun f => putU16 f.count ++ putU8 (sampleKindCode f.kind) ++ putU8 (bankCode f.bank))
        (match x.status with
          | .fault f => some f
          | _ => none) := by
  funext x
  unfold putHeadReport
  cases x.status <;> rfl

theorem putEntry_eq : putEntry = fun e => putI32 e.value ++ putU8 (if e.fresh then 0 else 1) ++ putBool e.clamped
    ++ putU8 e.head ++ putU8 (bankCode e.bank) := rfl

theorem putWindow_eq : putWindow = fun w => putBool w.enabled ++ putU16 w.base ++ putU8 w.exponent
    ++ putBool w.complement := rfl

/-- Settles O17: each owner on its range, the scans by what they examine, and the layout of each body. -/
theorem readsReplyAndChangeNothing : Obligations.ReadsReplyAndChangeNothing := by
  refine ⟨fun s rt taken => ⟨?_, ?_, ?_, fun n low => ?_, fun h b => ?_, fun m b x is => ?_,
      ⟨fun n above => ?_, fun head code outside => ?_, fun m code outside => ?_, fun m first count outside => ?_,
        fun start count outside => ?_⟩,
      fun m first count x is low high some_ few => ?_, fun start count low some_ few => ?_⟩,
    rfl, fun r => ?_, rfl, rfl, fun _ => rfl, fun n t => ?_, fun _ _ _ _ _ _ _ => ?_, rfl,
    fun _ _ _ _ _ _ _ _ _ _ => ?_, fun _ => rfl, fun _ _ _ _ _ _ => rfl, fun _ _ _ _ => ?_⟩
  · exact congrArg _ (openRequest_answers taken rfl)
  · refine (congrArg _ (openRequest_answers (owner := fun s => replied s .ok (.status (statusReport s))) taken rfl)).trans ?_
    rw [statusReport_eq]
    rfl
  · exact congrArg _ (openRequest_answers taken rfl)
  · exact congrArg _ (openRequest_answers taken (if_neg (by omega)))
  · dsimp only
    rw [← calBankOf_eq]
    exact congrArg _ (openRequest_answers taken (ownReadCal_inside _))
  · dsimp only
    rw [← profileOf_eq]
    exact congrArg _ (openRequest_answers taken (ownReadProfile_inside (s := heard .crib s) is))
  · exact congrArg _ (openRequest_answers taken (if_pos above))
  · exact congrArg _ (openRequest_answers taken (ownReadCal_outside outside _))
  · exact congrArg _ (openRequest_answers taken (ownReadProfile_outside outside _))
  · exact congrArg _ (openRequest_answers taken (ownReadPockets_outside outside _))
  · exact congrArg _ (openRequest_answers taken (if_pos outside))
  · obtain ⟨fuel, copied, before, stops⟩ := scanPockets_spec (heard .crib s) m (241 - first) first count
    refine ⟨_, ?_, before, ?_, ?_⟩
    · omega
    · exact stops.imp_right fun all_ => by omega
    · refine (congrArg _ (openRequest_answers taken (ownReadPockets_inside (s := heard .crib s) is low high some_ few))).trans ?_
      rw [copied]
      rfl
  · obtain ⟨fuel, copied, before, stops⟩ := scanRecords_spec (heard .crib s) 1024 start count (by omega)
    refine ⟨_, fuel, before, stops, ?_⟩
    refine (congrArg _ (openRequest_answers taken (if_neg (by omega)))).trans ?_
    rw [copied]
    rfl
  · simp only [putReplyBody, putStatusReport, putHeadReport_eq, List.flatMap_def, List.append_assoc]
    rfl
  · simp only [putReplyBody, putTypeRecord, List.append_assoc]
    cases t.axes <;> rfl
  · simp only [putReplyBody, putCalBank, putCalValidity, List.append_assoc]
    rfl
  · simp only [putReplyBody, putProfile, List.append_assoc]
    rfl
  · simp only [putReplyBody, putRecord, putEntry_eq, putWindow_eq, List.flatMap_def, List.append_assoc]

end Sys2Proof.Reads_

/-! PROOFS. Gauge frames at their heads: what each one makes of the head's state and slot (chapters 3 and 5). -/

namespace Sys2Proof.Captures

open Sys2Proof Sys2Proof.Machine Sys2Proof.Transitions

/-! ## Gauge frames of a released part -/

theorem exec_contact (h : Fin 4) (g : GaugeFrame) (tag : Tag) {s : State} (released : s.resetPin = false) :
    exec (.contact h g tag) s = .next (grants (gaugeContact h g tag (heard .crib s))) :=
  congrArg Host.Outcome.next (onArrival_released .crib _ s released)

theorem exec_sample (h : Fin 4) (g : GaugeFrame) {s : State} (released : s.resetPin = false) :
    exec (.sample h g) s = .next (grants (gaugeSample h g (heard .crib s))) :=
  congrArg Host.Outcome.next (onArrival_released .crib _ s released)

theorem exec_release (h : Fin 4) (g : GaugeFrame) {s : State} (released : s.resetPin = false) :
    exec (.release h g) s = .next (grants (gaugeRelease h g (heard .crib s))) :=
  congrArg Host.Outcome.next (onArrival_released .crib _ s released)

/-- The frame of a READY head by its reference count: inside the active bank's window, limits included (R50). -/
def InWindow (x : Head) (g : GaugeFrame) : Prop :=
  0 < g.reference ∧ (activeCal x).refMin ≤ g.reference ∧ g.reference ≤ (activeCal x).refMax

theorem monitor_passes {x : Head} {g : GaugeFrame} (inside : InWindow x g) : monitorPasses (activeCal x) g = true :=
  (monitorPasses_iff _ _).2 inside

theorem monitor_fails {x : Head} {g : GaugeFrame} (outside : ¬InWindow x g) : monitorPasses (activeCal x) g = false :=
  Bool.eq_false_iff.2 fun passes => outside ((monitorPasses_iff _ _).1 passes)

theorem gatingKnown_iff {g : GaugeFrame} : gatingKnown g = true ↔ g.gating ≤ 1 := decide_eq_true_iff

theorem gating_unknown {g : GaugeFrame} (above : 1 < g.gating) : gatingKnown g = false :=
  Bool.eq_false_iff.2 fun known => absurd (gatingKnown_iff.1 known) (by omega)

/-! ## The ends of a capture (R65, R85, R87) -/

/-- The slot freed or latched under the capture's notice, with no switch pending. -/
theorem completePendingCal_none {u : State} {h : Fin 4} (pending : (headAt u h).pendingCal = none) (a : Nat) (slot : Slot)
    (body : NoticeBody) :
    completePendingCal h a (notify body (putHeadSlot h slot u))
      = notify body (putHead h { headAt u h with slot := slot } u) := by
  have now : headAt (notify body (putHeadSlot h slot u)) h = { headAt u h with slot := slot } := by
    rw [headAt_notify, putHeadSlot, headAt_putHead_same]
  unfold completePendingCal
  rw [now]
  dsimp only
  split
  next => rfl
  next b is =>
    rw [pending] at is
    cases is

/-- The same with a pending switch, which completes after the capture's notice. -/
theorem completePendingCal_some {u : State} {h : Fin 4} {b : Bank} (ready : (headAt u h).status = .ready)
    (pending : (headAt u h).pendingCal = some b) (a : Nat) (slot : Slot) (body : NoticeBody) :
    completePendingCal h a (notify body (putHeadSlot h slot u))
      = notify (.calSwitchDone h b (headAt u h).active (some a) .ready)
          (notify body (putHead h { headAt u h with slot := slot, active := b, pendingCal := none } u)) := by
  have now : headAt (notify body (putHeadSlot h slot u)) h = { headAt u h with slot := slot } := by
    rw [headAt_notify, putHeadSlot, headAt_putHead_same]
  unfold completePendingCal
  rw [now]
  dsimp only
  split
  next is =>
    rw [pending] at is
    cases is
  next b' is =>
    rw [pending] at is
    cases is
    rw [putHead_notify, putHeadSlot, putHead_putHead, switchedTo]
    simp only [ready, calibratedState]

/-- The state of a head's work given up: its assembly's record and the head. -/
def ended (s : State) (c : Capture) (r : Assembly) (h : Fin 4) (x : Head) : State :=
  { s with
    assemblies := tableSet s.assemblies c.assembly { r with state := c.prior }
    heads := s.heads.set h x }

theorem abort_none {s : State} {h : Fin 4} {c : Capture} {r : Assembly} (record : recordAt s c.assembly = some r)
    (pending : (headAt s h).pendingCal = none) (reason : AbortReason) (slot : Slot) (a : Nat) :
    completePendingCal h a (abortCapture h c reason slot s)
      = notify (.captureAborted h c.assembly c.axis reason c.prior c.frames c.history.length)
          (ended s c r h { headAt s h with slot := slot }) := by
  rw [abortCapture, setState_of_record record]
  exact completePendingCal_none (u := putAssembly c.assembly { r with state := c.prior } s) pending a slot _

theorem abort_some {s : State} {h : Fin 4} {c : Capture} {r : Assembly} {b : Bank}
    (record : recordAt s c.assembly = some r) (ready : (headAt s h).status = .ready)
    (pending : (headAt s h).pendingCal = some b) (reason : AbortReason) (slot : Slot) (a : Nat) :
    completePendingCal h a (abortCapture h c reason slot s)
      = notify (.calSwitchDone h b (headAt s h).active (some a) .ready)
          (notify (.captureAborted h c.assembly c.axis reason c.prior c.frames c.history.length)
            (ended s c r h { headAt s h with slot := slot, active := b, pendingCal := none })) := by
  rw [abortCapture, setState_of_record record]
  exact completePendingCal_some (u := putAssembly c.assembly { r with state := c.prior } s) ready pending a slot _

/-- The record with the settled entry. -/
def enteredRecord (h : Fin 4) (c : Capture) (r : Assembly) : Assembly :=
  withEntry c.axis ⟨resultOf c.axis (meanOf c.history), true, c.history.any (·.clamped), h, c.bank⟩ r

theorem settledRecord_eq (h : Fin 4) (c : Capture) (t : TypeRecord) (r : Assembly) :
    settledRecord h c t r
      = { enteredRecord h c r with state := outcomeOf t (enteredRecord h c r) r.state, marked := false } := by
  unfold settledRecord enteredRecord
  cases c.axis <;> rfl

/-- The record and the sweep that a settle leaves (R85, R37). -/
def settledState (s : State) (h : Fin 4) (c : Capture) (r : Assembly) : State :=
  { s with
    assemblies := tableSet s.assemblies c.assembly
      { enteredRecord h c r with
        state := outcomeOf (typeAt s r.type) (enteredRecord h c r) r.state, marked := false }
    sweep := if r.marked then { s.sweep with marks := s.sweep.marks - 1, otherwise := s.sweep.otherwise + 1 } else s.sweep }

theorem headAt_settledState (s : State) (h : Fin 4) (c : Capture) (r : Assembly) (k : Fin 4) :
    headAt (settledState s h c r) k = headAt s k := rfl

/-- CAPTURE_DONE of a settle (R92). -/
def doneNotice (s : State) (h : Fin 4) (c : Capture) (r : Assembly) : NoticeBody :=
  .captureDone h c.assembly c.axis (resultOf c.axis (meanOf c.history)) (meanOf c.history) (c.history.any (·.clamped))
    c.bank c.frames (verdictOf (typeAt s r.type) (enteredRecord h c r))
    (outcomeOf (typeAt s r.type) (enteredRecord h c r) r.state)

theorem clearedOtherwise_if (marked : Bool) (u : State) :
    (if marked then clearedOtherwise u else u)
      = { u with sweep := if marked then { u.sweep with marks := u.sweep.marks - 1, otherwise := u.sweep.otherwise + 1 }
                 else u.sweep } := by
  cases marked <;> rfl

theorem settle_none {s : State} {h : Fin 4} {c : Capture} {r : Assembly} (record : recordAt s c.assembly = some r)
    (pending : (headAt s h).pendingCal = none) :
    settleCapture h c s
      = notify (doneNotice s h c r) (putHead h { headAt s h with slot := .latched } (settledState s h c r)) := by
  unfold settleCapture
  rw [record]
  dsimp only
  rw [clearedOtherwise_if, settledRecord_eq]
  rw [← headAt_settledState s h c r h] at pending
  exact completePendingCal_none pending c.assembly .latched (doneNotice s h c r)

theorem settle_some {s : State} {h : Fin 4} {c : Capture} {r : Assembly} {b : Bank}
    (record : recordAt s c.assembly = some r) (ready : (headAt s h).status = .ready)
    (pending : (headAt s h).pendingCal = some b) :
    settleCapture h c s = notify (.calSwitchDone h b (headAt s h).active (some c.assembly) .ready)
      (notify (doneNotice s h c r)
        (putHead h { headAt s h with slot := .latched, active := b, pendingCal := none } (settledState s h c r))) := by
  unfold settleCapture
  rw [record]
  dsimp only
  rw [clearedOtherwise_if, settledRecord_eq]
  rw [← headAt_settledState s h c r h] at pending ready
  exact completePendingCal_some ready pending c.assembly .latched (doneNotice s h c r)

/-! ## Releases (R78, R87) -/

theorem gaugeRelease_unready {h : Fin 4} {s : State} (unready : (headAt s h).status ≠ .ready) (g : GaugeFrame) :
    gaugeRelease h g s = discardGauge h s := by
  unfold gaugeRelease
  dsimp only
  split
  next => rfl
  next => rfl
  next ready => exact absurd ready unready

theorem gaugeRelease_idle {h : Fin 4} {s : State} {g : GaugeFrame} (ready : (headAt s h).status = .ready)
    (inside : InWindow (headAt s h) g) (idle : (headAt s h).slot = .idle) : gaugeRelease h g s = s := by
  simp only [gaugeRelease, ready, monitor_passes inside, idle]
  rfl

theorem gaugeRelease_latched {h : Fin 4} {s : State} {g : GaugeFrame} (ready : (headAt s h).status = .ready)
    (inside : InWindow (headAt s h) g) (latched : (headAt s h).slot = .latched) :
    gaugeRelease h g s = putHeadSlot h .idle s := by
  simp only [gaugeRelease, ready, monitor_passes inside, latched]
  rfl

theorem gaugeRelease_armed {h : Fin 4} {s : State} {g : GaugeFrame} {c : Capture} (ready : (headAt s h).status = .ready)
    (inside : InWindow (headAt s h) g) (armed : (headAt s h).slot = .armed c) :
    gaugeRelease h g s = completePendingCal h c.assembly (abortCapture h c .releasedEarly .idle s) := by
  simp only [gaugeRelease, ready, monitor_passes inside, armed]
  rfl

/-- Settles O28: a release by the head's state and its slot. -/
theorem releaseEndsTheTouch : Obligations.ReleaseEndsTheTouch := by
  refine fun s h g released => ⟨fun unready => ?_, fun ready inside => ⟨fun latched => ?_, fun idle => ?_,
    fun c r armed record pending => ?_⟩⟩
  · rw [exec_release h g released, gaugeRelease_unready (s := heard .crib s) unready]
    rfl
  · rw [exec_release h g released, gaugeRelease_latched (s := heard .crib s) ready inside latched]
    rfl
  · rw [exec_release h g released, gaugeRelease_idle (s := heard .crib s) ready inside idle]
  · rw [exec_release h g released, gaugeRelease_armed (s := heard .crib s) ready inside armed,
      abort_none (s := heard .crib s) record pending]
    rfl

end Sys2Proof.Captures

/-! PROOFS. Samples: what a reading makes of a capture, and the ends of a capture with a pending switch (R65, R82 to
R88). -/

namespace Sys2Proof.Readings

open Sys2Proof Sys2Proof.Machine Sys2Proof.Transitions Sys2Proof.Captures

theorem gaugeSample_unready {h : Fin 4} {s : State} (unready : (headAt s h).status ≠ .ready) (g : GaugeFrame) :
    gaugeSample h g s = discardGauge h s := by
  unfold gaugeSample
  dsimp only
  split
  next => rfl
  next => rfl
  next ready => exact absurd ready unready

theorem gaugeSample_gating {h : Fin 4} {s : State} {g : GaugeFrame} (ready : (headAt s h).status = .ready)
    (inside : InWindow (headAt s h) g) (above : 1 < g.gating) : gaugeSample h g s = discardGauge h s := by
  simp only [gaugeSample, ready, monitor_passes inside, gating_unknown above]
  rfl

theorem gaugeSample_free {h : Fin 4} {s : State} {g : GaugeFrame} (ready : (headAt s h).status = .ready)
    (inside : InWindow (headAt s h) g) (known : g.gating ≤ 1)
    (free : (headAt s h).slot = .idle ∨ (headAt s h).slot = .latched) : gaugeSample h g s = s := by
  rcases free with slot | slot
  all_goals
    simp only [gaugeSample, ready, monitor_passes inside, gatingKnown_iff.2 known, slot]
    rfl

theorem gaugeSample_armed {h : Fin 4} {s : State} {g : GaugeFrame} {c : Capture} (ready : (headAt s h).status = .ready)
    (inside : InWindow (headAt s h) g) (known : g.gating ≤ 1) (armed : (headAt s h).slot = .armed c) :
    gaugeSample h g s = applyReading h (readingEffect s h c (readingOf (activeCal (headAt s h)) g)) s := by
  simp only [gaugeSample, ready, monitor_passes inside, gatingKnown_iff.2 known, armed]
  rfl

/-! ## What a reading makes of a capture -/

/-- The capture of a head with a reading in it, at the depth of the capture's bank (R82). -/
def withReading (s : State) (h : Fin 4) (c : Capture) (reading : Option Sample) : Capture :=
  afterReading (calBankOf (headAt s h) c.bank).depth reading c

/-- The reading settles the capture (R83). -/
def Settles (s : State) (h : Fin 4) (c : Capture) (r : Assembly) (reading : Option Sample) : Prop :=
  reading ≠ none ∧ (withReading s h c reading).history.length = (calBankOf (headAt s h) c.bank).depth
    ∧ ∀ a ∈ (withReading s h c reading).history, ∀ b ∈ (withReading s h c reading).history,
      a.value - b.value ≤ (typeAt s r.type).band

theorem withReading_eq (s : State) (h : Fin 4) (c : Capture) (reading : Option Sample) :
    withReading s h c reading = { c with
      frames := c.frames + 1
      history := if reading = none then c.history
        else (c.history ++ reading.toList).drop
          ((c.history ++ reading.toList).length - (calBankOf (headAt s h) c.bank).depth) } := afterReading_eq _ _ _

theorem readingEffect_eq {s : State} {h : Fin 4} {c : Capture} {r : Assembly} (record : recordAt s c.assembly = some r)
    (reading : Option Sample) :
    readingEffect s h c reading
      = if settles (calBankOf (headAt s h) c.bank).depth (typeAt s r.type).band reading (withReading s h c reading) = true
          then .settled (withReading s h c reading)
        else if 64 ≤ (withReading s h c reading).frames then .timedOut (withReading s h c reading)
        else .goesOn (withReading s h c reading) := by
  unfold readingEffect
  rw [record]
  rfl

section Effects

variable {s : State} {h : Fin 4} {c : Capture} {r : Assembly} {reading : Option Sample}

theorem readingEffect_settled (record : recordAt s c.assembly = some r)
    (deep : 1 ≤ (calBankOf (headAt s h) c.bank).depth) (settles : Settles s h c r reading) :
    readingEffect s h c reading = .settled (withReading s h c reading) := by
  rw [readingEffect_eq record, if_pos ((settles_iff _ _ _ _ deep).2 settles)]

theorem readingEffect_timedOut (record : recordAt s c.assembly = some r)
    (deep : 1 ≤ (calBankOf (headAt s h) c.bank).depth) (unsettled : ¬Settles s h c r reading) (late : 64 ≤ c.frames + 1) :
    readingEffect s h c reading = .timedOut (withReading s h c reading) := by
  rw [readingEffect_eq record, if_neg fun settles => unsettled ((settles_iff _ _ _ _ deep).1 settles), withReading_eq]
  exact if_pos late

theorem readingEffect_goesOn (record : recordAt s c.assembly = some r)
    (deep : 1 ≤ (calBankOf (headAt s h) c.bank).depth) (unsettled : ¬Settles s h c r reading) (early : c.frames + 1 < 64) :
    readingEffect s h c reading = .goesOn (withReading s h c reading) := by
  rw [readingEffect_eq record, if_neg fun settles => unsettled ((settles_iff _ _ _ _ deep).1 settles), withReading_eq]
  exact if_neg (Nat.not_le.2 early)

end Effects

/-! ## Samples (R82 to R86) -/

theorem readingOf_eq (b : CalBank) (g : GaugeFrame) :
    readingOf b g = if g.overflow = true ∨ (if g.gating = 0 then g.reference else g.sensor) = 0 then none
      else some (compensated b g) := by
  have discarded : countsDiscarded g = true ↔ g.overflow = true ∨ (if g.gating = 0 then g.reference else g.sensor) = 0 := by
    unfold countsDiscarded
    split <;> simp
  rw [readingOf]
  simp only [discarded]

theorem armedOn_eq_some {s : State} {h : Fin 4} {n : Nat} :
    armedOn s h = some n ↔ ∃ c, s.heads[h].slot = .armed c ∧ c.assembly = n := by
  rw [armedOn, Option.map_eq_some_iff]
  simp only [slot_eq_of_armedCapture]
  rfl

/-- Settles O27: a sample by the head's state, the gating kind and the slot, then by what its reading makes of the
capture. -/
theorem sampleEntersOrSettles : Obligations.SampleEntersOrSettles := by
  refine ⟨fun e r => ⟨rfl, rfl⟩, fun x b => ⟨Reads_.calBankOf_eq x b, rfl⟩, fun s h => ⟨rfl, fun n => armedOn_eq_some⟩,
    fun b g _ => readingOf_eq b g, fun s h g released => ⟨fun unready => ?_, fun ready inside above => ?_,
      fun ready inside known free => ?_⟩, fun s h g c r => ?_⟩
  · rw [exec_sample h g released, gaugeSample_unready (s := heard .crib s) unready]
    rfl
  · rw [exec_sample h g released, gaugeSample_gating (s := heard .crib s) ready inside above]
    rfl
  · rw [exec_sample h g released, gaugeSample_free (s := heard .crib s) ready inside known free]
  · intro x inWindow t reading depth accepted kept c' settled released ready armed inside known record deep
    have entered : withReading (heard .crib s) h c reading = c' := withReading_eq _ _ _ _
    have test : Settles (heard .crib s) h c r reading ↔ settled := by rw [Settles, entered]; rfl
    have runs := gaugeSample_armed (s := heard .crib s) ready inside known armed
    refine ⟨fun unsettled early => ?_, fun settles pending => ?_⟩
    · have effect := (readingEffect_goesOn (s := heard .crib s) record deep (mt test.1 unsettled) early).trans
        (congrArg ReadingEffect.goesOn entered)
      rw [exec_sample h g released, runs]
      exact congrArg (fun e => Host.Outcome.next (grants (applyReading h e (heard .crib s)))) effect
    · have effect := (readingEffect_settled (s := heard .crib s) record deep (test.2 settles)).trans
        (congrArg ReadingEffect.settled entered)
      rw [exec_sample h g released, runs]
      refine (congrArg (fun e => Host.Outcome.next (grants (applyReading h e (heard .crib s)))) effect).trans ?_
      exact congrArg (fun u => Host.Outcome.next (grants u)) (settle_none (s := heard .crib s) (c := c') record pending)

/-- The 64th reading of a capture that it does not settle, with no switch pending (R86). -/
theorem applyReading_timedOut {s : State} {h : Fin 4} {c c' : Capture} {r : Assembly} (record : recordAt s c.assembly = some r)
    (same : c'.assembly = c.assembly) (pending : (headAt s h).pendingCal = none) :
    applyReading h (.timedOut c') s
      = notify (.captureAborted h c'.assembly c'.axis .settleTimeout c'.prior c'.frames c'.history.length)
          (ended s c' r h { headAt s h with slot := .latched }) := by
  rw [← same] at record
  exact abort_none record pending .settleTimeout .latched c'.assembly

theorem exec_settleTimeout {s : State} {h : Fin 4} {g : GaugeFrame} (late : timesOut s h g = true) :
    exec (.settleTimeout h g) s = exec (.sample h g) s := by
  have arm : exec (.settleTimeout h g) s
      = .next (if timesOut s h g then onArrival .crib (gaugeSample h g) s else s) := rfl
  rw [arm, if_pos late]
  rfl

theorem timesOut_of {s : State} {h : Fin 4} {g : GaugeFrame} {c c' : Capture} (ready : (headAt s h).status = .ready)
    (inside : InWindow (headAt s h) g) (known : g.gating ≤ 1) (armed : (headAt s h).slot = .armed c)
    (effect : readingEffect s h c (readingOf (activeCal (headAt s h)) g) = .timedOut c') : timesOut s h g = true := by
  simp only [timesOut, ready, monitor_passes inside, gatingKnown_iff.2 known, armed, effect]
  decide

/-- Settles O29: the 64th reading times the capture out, and the row is that sample. -/
theorem sixtyFourthReadingTimesOut : Obligations.SixtyFourthReadingTimesOut := by
  intro s h g c r x inWindow t reading depth accepted kept c' settled released ready armed inside known record deep
    unsettled last pending i is
  have entered : withReading s h c reading = c' := withReading_eq _ _ _ _
  have test : Settles s h c r reading ↔ settled := by rw [Settles, entered]
  have late : 64 ≤ c.frames + 1 := last.ge
  have effect := (readingEffect_timedOut record deep (mt test.1 unsettled) late).trans
    (congrArg ReadingEffect.timedOut entered)
  have sampled : exec i s = exec (.sample h g) s := by
    rcases is with rfl | rfl
    · exact exec_settleTimeout (timesOut_of ready inside known armed effect)
    · rfl
  rw [sampled, exec_sample h g released, gaugeSample_armed (s := heard .crib s) ready inside known armed]
  refine (congrArg (fun e => Host.Outcome.next (grants (applyReading h e (heard .crib s)))) effect).trans ?_
  rw [applyReading_timedOut (s := heard .crib s) (c := c) (c' := c') record rfl pending, last]
  rfl

/-! ## Ends of a capture that holds a switch (R65) -/

/-- The row of a gauge frame's sample kind. -/
def gaugeRow (h : Fin 4) (k : SampleKind) (g : GaugeFrame) (tag : Tag) : Instr :=
  match k with
  | .contact => .contact h g tag
  | .sample => .sample h g
  | .release => .release h g

theorem exec_atCaptureEnd {s : State} {h : Fin 4} {k : SampleKind} {g : GaugeFrame} (tag : Tag)
    (ends : endsHeldCapture s h k g = true) : exec (.atCaptureEnd h k g tag) s = exec (gaugeRow h k g tag) s := by
  have arm : exec (.atCaptureEnd h k g tag) s
      = .next (if endsHeldCapture s h k g then onArrival .crib (gaugeFrame h k g tag) s else s) := rfl
  rw [arm, if_pos ends]
  cases k <;> rfl

section Held

variable {s : State} {h : Fin 4} {g : GaugeFrame} {c : Capture} {b : Bank}

theorem endsHeldCapture_contact (ready : (headAt s h).status = .ready) (pending : (headAt s h).pendingCal = some b)
    (armed : (headAt s h).slot = .armed c) : endsHeldCapture s h .contact g = true := by
  simp [endsHeldCapture, ready, pending, armed]

theorem endsHeldCapture_release (ready : (headAt s h).status = .ready) (pending : (headAt s h).pendingCal = some b)
    (armed : (headAt s h).slot = .armed c) (inside : InWindow (headAt s h) g) :
    endsHeldCapture s h .release g = true := by
  simp [endsHeldCapture, ready, pending, armed, monitor_passes inside]

theorem endsHeldCapture_sample (ready : (headAt s h).status = .ready) (pending : (headAt s h).pendingCal = some b)
    (armed : (headAt s h).slot = .armed c) (inside : InWindow (headAt s h) g) (known : g.gating ≤ 1) {c' : Capture}
    (effect : readingEffect s h c (readingOf (activeCal (headAt s h)) g) = .timedOut c'
      ∨ readingEffect s h c (readingOf (activeCal (headAt s h)) g) = .settled c') :
    endsHeldCapture s h .sample g = true := by
  rcases effect with effect | effect
  all_goals simp [endsHeldCapture, ready, pending, armed, monitor_passes inside, gatingKnown_iff.2 known, effect]

end Held

theorem heard_notify (p : Port) (body : NoticeBody) (s : State) : heard p (notify body s) = notify body (heard p s) := by
  unfold notify
  cases p
  all_goals
    split
    next room => exact (if_pos room).symm
    next full => exact (if_neg full).symm

theorem heard_heard (p : Port) (s : State) : heard p (heard p s) = heard p s := by cases p <;> rfl

theorem headAt_ended (s : State) (c : Capture) (r : Assembly) (h : Fin 4) (x : Head) : headAt (ended s c r h x) h = x := by
  simp [ended, headAt]

/-- A contact that ends a capture is then handled as on the state that the end leaves (R88). -/
theorem exec_contact_recontact {s u : State} {h : Fin 4} {c : Capture} (released : s.resetPin = false)
    (ready : (headAt s h).status = .ready) (armed : (headAt s h).slot = .armed c)
    (ends : completePendingCal h c.assembly (abortCapture h c .recontact .idle (heard .crib s)) = heard .crib u)
    (ready' : (headAt u h).status = .ready) (idle : (headAt u h).slot = .idle) (released' : u.resetPin = false)
    (g : GaugeFrame) (tag : Tag) : exec (.contact h g tag) s = exec (.contact h g tag) u := by
  have first : recontact h (heard .crib s) = heard .crib u := by
    unfold recontact
    have slot : (headAt (heard .crib s) h).slot = .armed c := armed
    rw [slot]
    exact ends
  have second : recontact h (heard .crib u) = heard .crib u := by
    unfold recontact
    have slot : (headAt (heard .crib u) h).slot = .idle := idle
    rw [slot]
  have before : gaugeContact h g tag (heard .crib s) = readyContact h g tag (recontact h (heard .crib s)) := by
    unfold gaugeContact
    have status : (headAt (heard .crib s) h).status = .ready := ready
    rw [status]
  have after : gaugeContact h g tag (heard .crib u) = readyContact h g tag (recontact h (heard .crib u)) := by
    unfold gaugeContact
    have status : (headAt (heard .crib u) h).status = .ready := ready'
    rw [status]
  rw [exec_contact h g tag released, exec_contact h g tag released', before, after, first, second]

theorem exec_contact_recontact_none {s : State} {h : Fin 4} {c : Capture} {r : Assembly} (released : s.resetPin = false)
    (ready : (headAt s h).status = .ready) (armed : (headAt s h).slot = .armed c)
    (record : recordAt s c.assembly = some r) (pending : (headAt s h).pendingCal = none) (g : GaugeFrame) (tag : Tag) :
    exec (.contact h g tag) s = exec (.contact h g tag)
      (notify (.captureAborted h c.assembly c.axis .recontact c.prior c.frames c.history.length)
        (ended s c r h { headAt s h with slot := .idle })) := by
  refine exec_contact_recontact released ready armed ?_ ?_ ?_ ?_ g tag
  · rw [abort_none (s := heard .crib s) record pending, heard_notify]
    rfl
  · rw [headAt_notify, headAt_ended]
    exact ready
  · rw [headAt_notify, headAt_ended]
  · simpa [ended] using released

theorem exec_contact_recontact_some {s : State} {h : Fin 4} {c : Capture} {r : Assembly} {b : Bank}
    (released : s.resetPin = false) (ready : (headAt s h).status = .ready) (armed : (headAt s h).slot = .armed c)
    (record : recordAt s c.assembly = some r) (pending : (headAt s h).pendingCal = some b) (g : GaugeFrame) (tag : Tag) :
    exec (.contact h g tag) s = exec (.contact h g tag)
      (notify (.calSwitchDone h b (headAt s h).active (some c.assembly) .ready)
        (notify (.captureAborted h c.assembly c.axis .recontact c.prior c.frames c.history.length)
          (ended s c r h { headAt s h with slot := .idle, active := b, pendingCal := none }))) := by
  refine exec_contact_recontact released ready armed ?_ ?_ ?_ ?_ g tag
  · rw [abort_some (s := heard .crib s) record ready pending, heard_notify, heard_notify]
    rfl
  · rw [headAt_notify, headAt_notify, headAt_ended]
    exact ready
  · rw [headAt_notify, headAt_notify, headAt_ended]
  · simpa [ended] using released

/-- Settles O30: each end of an armed capture with a switch pending, the row by the frame that ends it. -/
theorem captureEndCompletesSwitch : Obligations.CaptureEndCompletesSwitch := by
  refine ⟨fun e r => ⟨rfl, rfl⟩, fun s h g tag c r b i => ?_, fun s h k g tag ends => ?_⟩
  case refine_2 =>
    rw [exec_atCaptureEnd tag ends]
    cases k <;> rfl
  intro x inWindow done aborted released ready armed pending record
  refine ⟨fun is inside => ?_, fun is => ?_, fun inside known => ?_⟩
  · have released_ : exec i s = exec (.release h g) s := by
      rcases is with rfl | rfl
      · rfl
      · exact exec_atCaptureEnd tag (endsHeldCapture_release ready pending armed inside)
    rw [released_, exec_release h g released, gaugeRelease_armed (s := heard .crib s) ready inside armed,
      abort_some (s := heard .crib s) record ready pending]
    rfl
  · have contacted : exec i s = exec (.contact h g tag) s := by
      rcases is with rfl | rfl
      · rfl
      · exact exec_atCaptureEnd tag (endsHeldCapture_contact ready pending armed)
    rw [contacted]
    exact exec_contact_recontact_some released ready armed record pending g tag
  · intro t reading depth accepted kept c' settled deep
    have entered : withReading s h c reading = c' := withReading_eq _ _ _ _
    have test : Settles s h c r reading ↔ settled := by rw [Settles, entered]
    refine ⟨fun unsettled late is => ?_, fun settles is => ?_⟩
    · have effect := (readingEffect_timedOut record deep (mt test.1 unsettled) late).trans
        (congrArg ReadingEffect.timedOut entered)
      have sampled : exec i s = exec (.sample h g) s := by
        rcases is with rfl | rfl | rfl
        · rfl
        · exact exec_settleTimeout (timesOut_of ready inside known armed effect)
        · exact exec_atCaptureEnd tag (endsHeldCapture_sample ready pending armed inside known (.inl effect))
      rw [sampled, exec_sample h g released, gaugeSample_armed (s := heard .crib s) ready inside known armed]
      refine (congrArg (fun e => Host.Outcome.next (grants (applyReading h e (heard .crib s)))) effect).trans ?_
      exact congrArg (fun u => Host.Outcome.next (grants u))
        (abort_some (s := heard .crib s) (c := c') record ready pending .settleTimeout .latched c.assembly)
    · have effect := (readingEffect_settled record deep (test.2 settles)).trans (congrArg ReadingEffect.settled entered)
      have sampled : exec i s = exec (.sample h g) s := by
        rcases is with rfl | rfl
        · rfl
        · exact exec_atCaptureEnd tag (endsHeldCapture_sample ready pending armed inside known (.inr effect))
      rw [sampled, exec_sample h g released, gaugeSample_armed (s := heard .crib s) ready inside known armed]
      refine (congrArg (fun e => Host.Outcome.next (grants (applyReading h e (heard .crib s)))) effect).trans ?_
      exact congrArg (fun u => Host.Outcome.next (grants u))
        (settle_some (s := heard .crib s) (c := c') record ready pending)

end Sys2Proof.Readings

/-! PROOFS. The reference monitor's faults (R50 to R52) and the contact (R79 to R82, R88). -/

namespace Sys2Proof.Contacts

open Sys2Proof Sys2Proof.Machine Sys2Proof.Transitions Sys2Proof.Captures Sys2Proof.Readings

/-! ## Reference faults -/

/-- The head that a reference fault leaves (R51). -/
def stoppedHead (x : Head) (g : GaugeFrame) (k : SampleKind) : Head :=
  { x with status := .fault ⟨g.reference, k, x.active⟩, pendingCal := none, slot := .idle }

/-- HEAD_FAULT of a head (R52). -/
def faultNotice (x : Head) (h : Fin 4) (g : GaugeFrame) (k : SampleKind) (aborted : Option Nat) : NoticeBody :=
  .headFault h g.reference k x.active (activeCal x).refMin (activeCal x).refMax aborted x.pendingCal

theorem referenceFault_free {s : State} {h : Fin 4} (free : (headAt s h).slot = .idle ∨ (headAt s h).slot = .latched)
    (k : SampleKind) (g : GaugeFrame) :
    referenceFault h k g s
      = notify (faultNotice (headAt s h) h g k none) (putHead h (stoppedHead (headAt s h) g k) s) := by
  unfold referenceFault
  rcases free with slot | slot
  all_goals
    simp only [slot]
    rfl

theorem referenceFault_armed {s : State} {h : Fin 4} {c : Capture} {r : Assembly} (armed : (headAt s h).slot = .armed c)
    (record : recordAt s c.assembly = some r) (k : SampleKind) (g : GaugeFrame) :
    referenceFault h k g s
      = notify (faultNotice (headAt s h) h g k (some c.assembly))
          (notify (.captureAborted h c.assembly c.axis .referenceFault c.prior c.frames c.history.length)
            (ended s c r h (stoppedHead (headAt s h) g k))) := by
  unfold referenceFault
  simp only [armed, abortCapture, headAt_notify, putHead_notify, putHeadSlot, headAt_putHead_same, putHead_putHead,
    setState_of_record record]
  rfl

theorem recontact_unarmed {s : State} {h : Fin 4} (free : (headAt s h).slot = .idle ∨ (headAt s h).slot = .latched) :
    recontact h s = s := by
  unfold recontact
  rcases free with slot | slot
  all_goals rw [slot]

theorem gaugeContact_ready {s : State} {h : Fin 4} (ready : (headAt s h).status = .ready)
    (free : (headAt s h).slot = .idle ∨ (headAt s h).slot = .latched) (g : GaugeFrame) (tag : Tag) :
    gaugeContact h g tag s = readyContact h g tag s := by
  unfold gaugeContact
  rw [ready]
  dsimp only
  rw [recontact_unarmed free]

/-- A frame that fails the monitor at a READY head, but for a CONTACT at an ARMED slot. -/
theorem exec_outside {s : State} {h : Fin 4} {k : SampleKind} {g : GaugeFrame} {tag : Tag} {i : Instr}
    (released : s.resetPin = false) (ready : (headAt s h).status = .ready) (outside : ¬InWindow (headAt s h) g)
    (is : (k = .contact ∧ i = .contact h g tag) ∨ (k = .sample ∧ i = .sample h g) ∨ (k = .release ∧ i = .release h g))
    (free : k = .contact → (headAt s h).slot = .idle ∨ (headAt s h).slot = .latched) :
    exec i s = .next (grants (referenceFault h k g (heard .crib s))) := by
  have fails : monitorPasses (activeCal (headAt (heard .crib s) h)) g = false := monitor_fails outside
  have status : (headAt (heard .crib s) h).status = .ready := ready
  rcases is with ⟨rfl, rfl⟩ | ⟨rfl, rfl⟩ | ⟨rfl, rfl⟩
  · rw [exec_contact h g tag released, gaugeContact_ready (s := heard .crib s) ready (free rfl)]
    unfold readyContact
    dsimp only
    rw [fails, if_pos rfl]
  · rw [exec_sample h g released]
    unfold gaugeSample
    dsimp only
    rw [status]
    dsimp only
    rw [fails, if_pos rfl]
  · rw [exec_release h g released]
    unfold gaugeRelease
    dsimp only
    rw [status]
    dsimp only
    rw [fails, if_pos rfl]

/-- Settles O31: the fault at a free slot, and at an armed one after the capture's abort. -/
theorem referenceFaultStopsHead : Obligations.ReferenceFaultStopsHead := by
  intro s h k g tag i x inWindow stopped released ready outside is
  refine ⟨fun free => ?_, fun c r armed record other => ?_⟩
  · rw [exec_outside released ready outside is fun _ => free, referenceFault_free (s := heard .crib s) free]
    rfl
  · rw [exec_outside released ready outside is fun contact => absurd contact other,
      referenceFault_armed (s := heard .crib s) armed record]
    rfl

/-! ## Contacts -/

theorem gaugeContact_uncalibrated {s : State} {h : Fin 4} (status : (headAt s h).status = .uncalibrated) (g : GaugeFrame)
    (tag : Tag) : gaugeContact h g tag s = notify (.contactRefused h .headNotReady tag none none none none) s := by
  unfold gaugeContact
  rw [status]

theorem gaugeContact_fault {s : State} {h : Fin 4} {record : FaultRecord} (status : (headAt s h).status = .fault record)
    (g : GaugeFrame) (tag : Tag) : gaugeContact h g tag s = discardGauge h s := by
  unfold gaugeContact
  rw [status]

theorem axis?_above {n : Nat} (above : 1 < n) : axis? n = none := by
  match n with
  | _ + 2 => rfl

theorem axis?_code (axis : Axis) : axis? (if axis = .length then 0 else 1) = some axis := by cases axis <;> rfl

theorem readyContact_unknown {s : State} {h : Fin 4} {g : GaugeFrame} (inside : InWindow (headAt s h) g)
    (unknown : 1 < g.axis ∨ 1 < g.gating) (tag : Tag) : readyContact h g tag s = discardGauge h s := by
  unfold readyContact
  dsimp only
  rw [monitor_passes inside, if_neg (by decide)]
  rcases unknown with above | above
  · rw [axis?_above above]
  · rw [gating_unknown above]
    cases axis? g.axis <;> rfl

theorem readyContact_known {s : State} {h : Fin 4} {g : GaugeFrame} {axis : Axis} (inside : InWindow (headAt s h) g)
    (code : axis? g.axis = some axis) (known : g.gating ≤ 1) (tag : Tag) :
    ((headAt s h).slot = .idle →
        readyContact h g tag s = takeContact h axis tag (readingOf (activeCal (headAt s h)) g) s)
      ∧ ((headAt s h).slot = .latched → readyContact h g tag s = s) := by
  unfold readyContact
  dsimp only
  rw [monitor_passes inside, if_neg (by decide), code, gatingKnown_iff.2 known]
  constructor
  · intro slot
    rw [slot]
  · intro slot
    rw [slot]

/-! ## The checks of an idle slot (R79, R80) -/

section Checks

variable {s : State} {h : Fin 4} {axis : Axis} {tag : Tag} {n : Nat} {r : Assembly}

theorem lookupTag_unbound (unbound : tableGet s.tagMap tag.toNat = none) : lookupTag s tag = none := by
  rw [lookupTag, unbound]
  rfl

theorem lookupTag_bound (bound : tableGet s.tagMap tag.toNat = some n) (record : recordAt s n = some r) :
    lookupTag s tag = some (n, r) := by
  rw [lookupTag, bound]
  exact congrArg (Option.map (n, ·)) record

theorem contactChecks_unbound (unbound : tableGet s.tagMap tag.toNat = none) :
    contactChecks s h axis tag = .inl (.contactRefused h .unknownTag tag (some axis) none none none) := by
  rw [contactChecks, lookupTag_unbound unbound]

/-- The checks of a bound tag, in their order (R79). -/
theorem contactChecks_bound (bound : tableGet s.tagMap tag.toNat = some n) (record : recordAt s n = some r) :
    contactChecks s h axis tag
      = if isHeld s n then .inl (.contactRefused h .held tag (some axis) (some n) none none)
        else if r.state = .measuring then
          .inl (.contactRefused h .busyElsewhere tag (some axis) (some n) (some r.state) (holdingHead s n))
        else if contactable r.state = false then
          .inl (.contactRefused h .state tag (some axis) (some n) (some r.state) none)
        else if axisRequired (typeAt s r.type) axis = false then
          .inl (.contactRefused h .axisNotRequired tag (some axis) (some n) none none)
        else .inr (n, r) := by
  rw [contactChecks, lookupTag_bound bound record]

theorem takeContact_refused {refusal : NoticeBody} (refused : contactChecks s h axis tag = .inl refusal)
    (reading : Option Sample) :
    takeContact h axis tag reading s = notify refusal (putHeadSlot h .latched s) := by
  rw [takeContact, refused]

end Checks

theorem contactable_iff {a : AsmState} :
    contactable a = true ↔ a = .built ∨ a = .partly ∨ a = .preset ∨ a = .rejected ∨ a = .remeasure := by
  cases a <;> decide

theorem axisRequired_iff {t : TypeRecord} {axis : Axis} :
    axisRequired t axis = true ↔ axis = .length ∨ t.axes = .lengthRadius := by
  cases axis
  · simp [axisRequired]
  · simp [axisRequired, needsRadius]

theorem unarmed_of_idle {s : State} {h : Fin 4} (idle : (headAt s h).slot = .idle) {n : Nat} : armedOn s h ≠ some n :=
  fun armed => by
    obtain ⟨c, slot, -⟩ := armedOn_eq_some.1 armed
    exact Slot.noConfusion (slot.symm.trans idle)

theorem unarmed_of_latched {s : State} {h : Fin 4} (latched : (headAt s h).slot = .latched) {n : Nat} :
    armedOn s h ≠ some n :=
  fun armed => by
    obtain ⟨c, slot, -⟩ := armedOn_eq_some.1 armed
    exact Slot.noConfusion (slot.symm.trans latched)

/-- The head's number of a slot armed on an assembly, of one head (R80). -/
def holdsOn (s : State) (n : Nat) (h : Fin 4) : Option Nat := if armedOn s h = some n then some h.val else none

theorem holdingHead_eq (s : State) (n : Nat) : holdingHead s n = ([0, 1, 2, 3] : List (Fin 4)).findSome? (holdsOn s n) := by
  unfold holdingHead
  congr 1
  funext h
  cases slot : (headAt s h).slot with
  | armed c => simp only [holdsOn, armedOn_eq_some.2 ⟨c, slot, rfl⟩, Option.some.injEq]
  | idle => exact (if_neg fun armed => unarmed_of_idle slot armed).symm
  | latched => exact (if_neg fun armed => unarmed_of_latched slot armed).symm

/-- Where one head alone holds the assembly, that head is named. -/
theorem holdingHead_of_unique {s : State} {n : Nat} {k : Fin 4} (holds : armedOn s k = some n)
    (unique : ∀ j : Fin 4, armedOn s j = some n → j = k) : holdingHead s n = some k.val := by
  rw [holdingHead_eq]
  have every : k ∈ ([0, 1, 2, 3] : List (Fin 4)) := by fin_cases k <;> simp
  match found : ([0, 1, 2, 3] : List (Fin 4)).findSome? (holdsOn s n) with
  | none =>
    have free : holdsOn s n k = none := List.findSome?_eq_none_iff.1 found k every
    simp [holdsOn, holds] at free
  | some v =>
    obtain ⟨j, -, of⟩ := List.exists_of_findSome?_eq_some found
    simp only [holdsOn, Option.ite_none_right_eq_some, Option.some.injEq] at of
    obtain ⟨on_, rfl⟩ := of
    rw [unique j on_]

/-! ## Arming (R81, R82) -/

/-- The capture that a contact arms. -/
def freshCapture (s : State) (h : Fin 4) (n : Nat) (axis : Axis) (prior : AsmState) (history : List Sample)
    (frames : Nat) : Capture := ⟨n, axis, prior, (headAt s h).active, history, frames⟩

/-- The state in which the contact's own reading enters: the assembly MEASURING, the slot ARMED. -/
def armedState (s : State) (h : Fin 4) (n : Nat) (axis : Axis) (r : Assembly) (history : List Sample) (frames : Nat) :
    State :=
  putHead h { headAt s h with slot := .armed (freshCapture s h n axis r.state history frames) }
    (putAssembly n { r with state := .measuring } s)

theorem putHeadSlot_armedState (s : State) (h : Fin 4) (n : Nat) (axis : Axis) (r : Assembly) (history : List Sample)
    (frames : Nat) :
    putHeadSlot h (.armed (freshCapture s h n axis r.state history frames)) (armedState s h n axis r [] 0)
      = armedState s h n axis r history frames := by
  rw [putHeadSlot, armedState, headAt_putHead_same, putHead_putHead]
  rfl

/-- The first reading never settles, for one reading is less than the depth asks (R58, R83). -/
theorem first_reading {s : State} {h : Fin 4} {n : Nat} {axis : Axis} {r : Assembly}
    (deep : 2 ≤ (activeCal (headAt s h)).depth) (reading : Option Sample) :
    readingEffect (armedState s h n axis r [] 0) h (freshCapture s h n axis r.state [] 0) reading
      = .goesOn (freshCapture s h n axis r.state reading.toList 1) := by
  have head : headAt (armedState s h n axis r [] 0) h
      = { headAt s h with slot := .armed (freshCapture s h n axis r.state [] 0) } := headAt_putHead_same _ _ _
  have depth : (calBankOf (headAt (armedState s h n axis r [] 0) h) (freshCapture s h n axis r.state [] 0).bank).depth
      = (activeCal (headAt s h)).depth := by
    rw [head]
    rfl
  have few : reading.toList.length < (activeCal (headAt s h)).depth :=
    Nat.lt_of_le_of_lt (by cases reading <;> simp) deep
  have entered : withReading (armedState s h n axis r [] 0) h (freshCapture s h n axis r.state [] 0) reading
      = freshCapture s h n axis r.state reading.toList 1 := by
    rw [withReading_eq, depth]
    cases reading with
    | none => rfl
    | some a =>
      have none_dropped : 1 - (activeCal (headAt s h)).depth = 0 := by omega
      simp [freshCapture, none_dropped]
  have record : recordAt (armedState s h n axis r [] 0) (freshCapture s h n axis r.state [] 0).assembly
      = some { r with state := .measuring } := (tableGet_tableSet _ _ _ _).trans (if_pos rfl)
  rw [readingEffect_goesOn record (by rw [depth]; omega) ?_ (Nat.one_lt_succ_succ 62), entered]
  rintro ⟨-, full, -⟩
  rw [entered, depth] at full
  exact absurd full few.ne

theorem takeContact_armed {s : State} {h : Fin 4} {axis : Axis} {tag : Tag} {n : Nat} {r : Assembly}
    (passes : contactChecks s h axis tag = .inr (n, r)) (record : recordAt s n = some r)
    (deep : 2 ≤ (activeCal (headAt s h)).depth) (reading : Option Sample) :
    takeContact h axis tag reading s = armedState s h n axis r reading.toList 1 := by
  have arms : putHeadSlot h (.armed (freshCapture s h n axis r.state [] 0)) (setState n .measuring s)
      = armedState s h n axis r [] 0 := by
    rw [setState_of_record record]
    rfl
  rw [takeContact, passes]
  dsimp only
  refine (congrArg (fun u => applyReading h (readingEffect u h (freshCapture s h n axis r.state [] 0) reading) u) arms).trans ?_
  rw [first_reading deep]
  exact putHeadSlot_armedState s h n axis r reading.toList 1

/-! ## The row -/

/-- A contact of known codes that finds a READY head's slot IDLE or LATCHED, its frame passing the monitor. -/
theorem exec_contact_idle {s : State} {h : Fin 4} {g : GaugeFrame} {axis : Axis} (released : s.resetPin = false)
    (ready : (headAt s h).status = .ready) (idle : (headAt s h).slot = .idle) (inside : InWindow (headAt s h) g)
    (code : g.axis = if axis = .length then 0 else 1) (known : g.gating ≤ 1) (tag : Tag) :
    exec (.contact h g tag) s
      = .next (grants (takeContact h axis tag (readingOf (activeCal (headAt s h)) g) (heard .crib s))) := by
  have code_ : axis? g.axis = some axis := by rw [code, axis?_code]
  rw [exec_contact h g tag released, gaugeContact_ready (s := heard .crib s) ready (.inl idle),
    (readyContact_known (s := heard .crib s) inside code_ known tag).1 idle]
  rfl

/-- Settles O26: a contact by the head's state, its codes and the slot, then by the first check of R79 that fails. -/
theorem contactArmsOrIsRefused : Obligations.ContactArmsOrIsRefused := by
  intro s h g tag released x inWindow discarded
  refine ⟨fun status => ?_, fun record status => ?_, fun ready free inside unknown => ?_,
    fun ready latched inside axis gating => ?_, fun c r ready armed record => ?_,
    fun axis ready idle inside code gating => ?_⟩
  · rw [exec_contact h g tag released, gaugeContact_uncalibrated (s := heard .crib s) status]
  · rw [exec_contact h g tag released, gaugeContact_fault (s := heard .crib s) status]
    rfl
  · rw [exec_contact h g tag released, gaugeContact_ready (s := heard .crib s) ready free,
      readyContact_unknown (s := heard .crib s) inside unknown]
    rfl
  · obtain ⟨a, code⟩ : ∃ a, axis? g.axis = some a := by
      rcases Nat.le_one_iff_eq_zero_or_eq_one.1 axis with zero | one
      · exact ⟨.length, by rw [zero]; rfl⟩
      · exact ⟨.radius, by rw [one]; rfl⟩
    rw [exec_contact h g tag released, gaugeContact_ready (s := heard .crib s) ready (.inr latched),
      (readyContact_known (s := heard .crib s) inside code gating tag).2 latched]
  · exact ⟨fun pending => exec_contact_recontact_none released ready armed record pending g tag,
      fun b pending => exec_contact_recontact_some released ready armed record pending g tag⟩
  · intro refused free required
    have runs := exec_contact_idle released ready idle inside code gating tag
    have refuses : ∀ refusal, contactChecks (heard .crib s) h axis tag = .inl refusal →
        exec (.contact h g tag) s = .next (grants (notify refusal (putHeadSlot h .latched (heard .crib s)))) :=
      fun refusal is => runs.trans (by rw [takeContact_refused is])
    refine ⟨fun unbound => refuses _ (contactChecks_unbound (s := heard .crib s) unbound), fun n r bound record => ?_⟩
    have checks := contactChecks_bound (s := heard .crib s) (h := h) (axis := axis) bound record
    have usable : contactable r.state = true ↔ free r.state := contactable_iff
    have asked : axisRequired (typeAt (heard .crib s) r.type) axis = true ↔ required (typeAt s r.type) := axisRequired_iff
    have unmeasured : free r.state → r.state ≠ .measuring := fun able measuring => by
      rw [← usable, measuring] at able
      cases able
    refine ⟨fun held => refuses _ ?_, fun clear measuring => ⟨holdingHead s n, refuses _ ?_, fun k => holdingHead_of_unique⟩,
      fun clear other unable => refuses _ ?_, fun clear able unasked => refuses _ ?_, fun clear able asks deep => ?_⟩
    · exact checks.trans (if_pos held)
    all_goals
      have unheld : ¬isHeld (heard .crib s) n = true := Bool.not_eq_true _ ▸ clear
      rw [if_neg unheld] at checks
    · rw [checks, if_pos measuring, measuring]
      rfl
    · rw [checks, if_neg other, if_pos (Bool.eq_false_iff.2 (mt usable.1 unable))]
    · rw [checks, if_neg (unmeasured able), if_neg (by simp [usable.2 able]),
        if_pos (Bool.eq_false_iff.2 (mt asked.1 unasked))]
    · rw [if_neg (unmeasured able), if_neg (by simp [usable.2 able]),
        if_neg (Bool.not_eq_false _ ▸ asked.2 asks)] at checks
      rw [runs, takeContact_armed (s := heard .crib s) checks record deep]
      rfl

end Sys2Proof.Contacts

/-! PROOFS. What a gauge frame leaves alone (R37, R41, R44, R80, R81, R85, R87): the changes of its own head, of the
records its capture and its tag name, and of nothing else, closed under the parts of which a gauge frame is made. -/

namespace Sys2Proof.Touches

open Sys2Proof Sys2Proof.Machine Sys2Proof.Transitions Sys2Proof.Captures

/-! ## The relation -/

/-- A record of which no more than the state, the axis entries and the mark has changed. -/
def Amends (r r' : Assembly) : Prop :=
  r' = { r with state := r'.state, length := r'.length, radius := r'.radius, marked := r'.marked }

theorem Amends.trans {a b c : Assembly} (ab : Amends a b) (bc : Amends b c) : Amends a c := by
  unfold Amends at *
  rw [ab] at bc
  exact bc

/-- `t` is `s` but for head `h`, the records `named`, one mark cleared otherwise when `cleared`, the frame in reception
at the crib port, the notices and the arbiters. -/
structure Touch (h : Fin 4) (named : Nat → Prop) (cleared : Bool) (s t : State) : Prop where
  heads : ∀ h' : Fin 4, h' ≠ h → headAt t h' = headAt s h'
  others : ∀ n, ¬named n → recordAt t n = recordAt s n
  records : ∀ n r, recordAt s n = some r → ∃ r', recordAt t n = some r' ∧ Amends r r'
  sweep : t.sweep = lessMark cleared s.sweep
  notices : s.notices <+: t.notices
  rest : t = { s with
    heads := t.heads, assemblies := t.assemblies, sweep := t.sweep
    crib := { s.crib with receiving := t.crib.receiving }
    notices := t.notices, discardedNotices := t.discardedNotices
    cribEgress := t.cribEgress, hallEgress := t.hallEgress }

section Touch

variable {h : Fin 4} {named : Nat → Prop} {m m' : Bool} {s t u : State}

/-- Two touches in a row, of which one at most has cleared a mark. -/
theorem Touch.seq (st : Touch h named m s t) (tu : Touch h named m' t u) (one : m = false ∨ m' = false) :
    Touch h named (m || m') s u where
  heads h' other := (tu.heads h' other).trans (st.heads h' other)
  others n free := (tu.others n free).trans (st.others n free)
  records n r record := by
    obtain ⟨r', record', amends⟩ := st.records n r record
    obtain ⟨r'', record'', amends'⟩ := tu.records n r' record'
    exact ⟨r'', record'', amends.trans amends'⟩
  sweep := by
    rw [tu.sweep, st.sweep]
    rcases one with rfl | rfl
    · rfl
    · rw [Bool.or_false]
      rfl
  notices := st.notices.trans tu.notices
  rest := by
    have rest := tu.rest
    rw [st.rest] at rest
    exact rest

theorem Touch.after (tu : Touch h named m t u) (st : Touch h named false s t) : Touch h named m s u := by
  simpa using st.seq tu (.inl rfl)

theorem Touch.before (st : Touch h named m s t) (tu : Touch h named false t u) : Touch h named m s u := by
  simpa using st.seq tu (.inr rfl)

/-- A touch that leaves the records alone. -/
theorem Touch.of_records (records : t.assemblies = s.assemblies)
    (heads : ∀ h' : Fin 4, h' ≠ h → headAt t h' = headAt s h') (sweep : t.sweep = lessMark m s.sweep)
    (notices : s.notices <+: t.notices)
    (rest : t = { s with
      heads := t.heads, assemblies := t.assemblies, sweep := t.sweep
      crib := { s.crib with receiving := t.crib.receiving }
      notices := t.notices, discardedNotices := t.discardedNotices
      cribEgress := t.cribEgress, hallEgress := t.hallEgress }) : Touch h named m s t where
  heads := heads
  others n _ := congrArg (tableGet · n) records
  records n r record := ⟨r, (congrArg (tableGet · n) records).trans record, rfl⟩
  sweep := sweep
  notices := notices
  rest := rest

end Touch

/-! ## The parts of a gauge frame -/

section Parts

variable {h : Fin 4} {named : Nat → Prop}

theorem touch_refl (s : State) : Touch h named false s s :=
  .of_records rfl (fun _ _ => rfl) rfl (List.prefix_refl _) rfl

theorem touch_heard (s : State) : Touch h named false s (heard .crib s) :=
  .of_records rfl (fun _ _ => rfl) rfl (List.prefix_refl _) rfl

theorem touch_grants (s : State) : Touch h named false s (grants s) :=
  .of_records (grants_assemblies s) (fun _ _ => by simp [headAt]) (grants_sweep s)
    (by rw [grants_notices]) (by rw [grants_frame])

theorem touch_notify (body : NoticeBody) (s : State) : Touch h named false s (notify body s) :=
  .of_records (notify_assemblies s body) (fun _ _ => by simp [headAt]) (notify_sweep s body)
    (by
      unfold notify
      split
      · exact List.prefix_append _ _
      · exact List.prefix_refl _)
    (by rw [notify_frame])

theorem touch_putHead (x : Head) (s : State) : Touch h named false s (putHead h x s) :=
  .of_records rfl (fun h' other => by rw [headAt_putHead, if_neg other]) rfl (List.prefix_refl _) rfl

theorem touch_clearedOtherwise (marked : Bool) (s : State) :
    Touch h named marked s (if marked then clearedOtherwise s else s) := by
  cases marked with
  | true => exact .of_records rfl (fun _ _ => rfl) rfl (List.prefix_refl _) rfl
  | false => exact touch_refl s

theorem touch_putAssembly {n : Nat} {r r' : Assembly} {s : State} (named_ : named n) (record : recordAt s n = some r)
    (amends : Amends r r') : Touch h named false s (putAssembly n r' s) where
  heads _ _ := rfl
  others k free := by
    rw [recordAt_putAssembly]
    refine if_neg ?_
    rintro rfl
    exact free named_
  records k a is := by
    rw [recordAt_putAssembly]
    split
    next same =>
      subst same
      obtain rfl : a = r := Option.some.inj (is.symm.trans record)
      exact ⟨r', rfl, amends⟩
    next => exact ⟨a, is, rfl⟩
  sweep := rfl
  notices := List.prefix_refl _
  rest := rfl

theorem touch_setState {n : Nat} {s : State} (named_ : named n) (state : AsmState) :
    Touch h named false s (setState n state s) := by
  unfold setState
  split
  next => exact touch_refl s
  next r record => exact touch_putAssembly named_ record rfl

theorem touch_discardGauge (s : State) : Touch h named false s (discardGauge h s) := touch_putHead _ s

theorem touch_completePendingCal (a : Nat) (s : State) : Touch h named false s (completePendingCal h a s) := by
  unfold completePendingCal
  dsimp only
  split
  next => exact touch_refl s
  next => exact (touch_notify _ _).after (touch_putHead _ s)

theorem touch_abortCapture {c : Capture} {s : State} (named_ : named c.assembly) (reason : AbortReason) (slot : Slot) :
    Touch h named false s (abortCapture h c reason slot s) :=
  ((touch_notify _ _).after (touch_putHead _ _)).after (touch_setState named_ c.prior)

theorem settledRecord_amends (h : Fin 4) (c : Capture) (t : TypeRecord) (r : Assembly) :
    Amends r (settledRecord h c t r) := by
  unfold settledRecord
  cases c.axis <;> rfl

theorem touch_settleCapture {c : Capture} {s : State} (named_ : named c.assembly) :
    ∃ m, Touch h named m s (settleCapture h c s) := by
  unfold settleCapture
  split
  next => exact ⟨false, touch_refl s⟩
  next r record =>
    have entered := touch_putAssembly (h := h) named_ record (settledRecord_amends h c (typeAt s r.type) r)
    have cleared := (touch_clearedOtherwise r.marked _).after entered
    exact ⟨r.marked, cleared.before ((touch_completePendingCal _ _).after
      ((touch_notify _ _).after (touch_putHead _ _)))⟩

/-- A reading touches the assembly of its capture. -/
theorem touch_applyReading {c : Capture} {s : State} (named_ : named c.assembly) (u : State) (reading : Option Sample) :
    ∃ m, Touch h named m s (applyReading h (readingEffect u h c reading) s) := by
  obtain ⟨c', entered, effect⟩ := readingEffect_cases u h c reading
  have same : c'.assembly = c.assembly := by rw [entered, afterReading_same]
  have named' : named c'.assembly := same ▸ named_
  rcases effect with settled | ⟨-, late⟩ | ⟨-, on_⟩
  · rw [settled]
    exact touch_settleCapture named'
  · rw [late]
    exact ⟨false, (touch_completePendingCal _ _).after (touch_abortCapture named' _ _)⟩
  · rw [on_]
    exact ⟨false, touch_putHead _ s⟩

theorem touch_takeContact {tag : Tag} {s : State} (named_ : ∀ n, tableGet s.tagMap tag.toNat = some n → named n)
    (axis : Axis) (reading : Option Sample) : ∃ m, Touch h named m s (takeContact h axis tag reading s) := by
  unfold takeContact
  split
  next => exact ⟨false, (touch_notify _ _).after (touch_putHead _ s)⟩
  next n r passed =>
    obtain ⟨found, -⟩ := contactChecks_inr passed
    have bound : named n := named_ n (lookupTag_record found).1
    dsimp only
    obtain ⟨m, read⟩ := touch_applyReading (h := h)
      (c := ⟨n, axis, r.state, (headAt s h).active, [], 0⟩) (named := named)
      (s := putHeadSlot h (.armed ⟨n, axis, r.state, (headAt s h).active, [], 0⟩) (setState n .measuring s)) bound
      (putHeadSlot h (.armed ⟨n, axis, r.state, (headAt s h).active, [], 0⟩) (setState n .measuring s)) reading
    exact ⟨m, read.after ((touch_putHead _ _).after (touch_setState bound .measuring))⟩

/-- The capture of the head is among the named. -/
def NamesCapture (h : Fin 4) (named : Nat → Prop) (s : State) : Prop := ∀ c, (headAt s h).slot = .armed c → named c.assembly

theorem touch_referenceFault {s : State} (names : NamesCapture h named s) (k : SampleKind) (g : GaugeFrame) :
    Touch h named false s (referenceFault h k g s) := by
  unfold referenceFault
  cases slot : (headAt s h).slot with
  | armed c =>
    simp only [slot]
    exact (touch_notify _ _).after ((touch_putHead _ _).after (touch_abortCapture (names c slot) _ _))
  | idle =>
    simp only [slot]
    exact (touch_notify _ _).after (touch_putHead _ _)
  | latched =>
    simp only [slot]
    exact (touch_notify _ _).after (touch_putHead _ _)

theorem touch_recontact {s : State} (names : NamesCapture h named s) : Touch h named false s (recontact h s) := by
  unfold recontact
  split
  next c slot => exact (touch_completePendingCal _ _).after (touch_abortCapture (names c slot) _ _)
  all_goals exact touch_refl s

/-- A recontact leaves no capture. -/
theorem recontact_unarmed (h : Fin 4) (s : State) (c : Capture) : (headAt (recontact h s) h).slot ≠ .armed c := by
  unfold recontact
  split
  next =>
    unfold completePendingCal abortCapture
    dsimp only
    split
    · simp [putHeadSlot, headAt_putHead_same]
    · simp [putHeadSlot, headAt_putHead_same, switchedTo]
  next slot => simp [slot]
  next slot => simp [slot]

theorem touch_readyContact {tag : Tag} {s : State} (unarmed : ∀ c, (headAt s h).slot ≠ .armed c)
    (named_ : ∀ n, tableGet s.tagMap tag.toNat = some n → named n) (g : GaugeFrame) :
    ∃ m, Touch h named m s (readyContact h g tag s) := by
  unfold readyContact
  dsimp only
  split
  next => exact ⟨false, touch_referenceFault (fun c slot => absurd slot (unarmed c)) .contact g⟩
  next =>
    split
    next =>
      split
      next => exact touch_takeContact named_ _ _
      all_goals exact ⟨false, touch_refl s⟩
    next => exact ⟨false, touch_discardGauge s⟩

theorem touch_gaugeContact {tag : Tag} {s : State} (names : NamesCapture h named s)
    (named_ : ∀ n, tableGet s.tagMap tag.toNat = some n → named n) (g : GaugeFrame) :
    ∃ m, Touch h named m s (gaugeContact h g tag s) := by
  unfold gaugeContact
  split
  next => exact ⟨false, touch_notify _ s⟩
  next => exact ⟨false, touch_discardGauge s⟩
  next =>
    have first := touch_recontact names
    have map : (recontact h s).tagMap = s.tagMap := by rw [first.rest]
    obtain ⟨m, second⟩ := touch_readyContact (recontact_unarmed h s) (map ▸ named_) g
    exact ⟨m, second.after first⟩

theorem touch_gaugeSample {s : State} (names : NamesCapture h named s) (g : GaugeFrame) :
    ∃ m, Touch h named m s (gaugeSample h g s) := by
  unfold gaugeSample
  dsimp only
  split
  next => exact ⟨false, touch_discardGauge s⟩
  next => exact ⟨false, touch_discardGauge s⟩
  next =>
    split_ifs
    · exact ⟨false, touch_referenceFault names .sample g⟩
    · exact ⟨false, touch_discardGauge s⟩
    · split
      next c slot => exact touch_applyReading (names c slot) s _
      all_goals exact ⟨false, touch_refl s⟩

theorem touch_gaugeRelease {s : State} (names : NamesCapture h named s) (g : GaugeFrame) :
    Touch h named false s (gaugeRelease h g s) := by
  unfold gaugeRelease
  dsimp only
  split
  next => exact touch_discardGauge s
  next => exact touch_discardGauge s
  next =>
    split_ifs
    · exact touch_referenceFault names .release g
    · split
      next => exact touch_refl s
      next => exact touch_putHead _ s
      next c slot => exact (touch_completePendingCal _ _).after (touch_abortCapture (names c slot) _ _)

end Parts

/-! ## The rows -/

/-- The records a gauge frame may change: the one its head's capture names and the one its tag names. -/
def NamedBy (s : State) (h : Fin 4) (i : Instr) (n : Nat) : Prop :=
  armedOn s h = some n ∨ ∃ g tag, i = .contact h g tag ∧ tableGet s.tagMap tag.toNat = some n

theorem touch_arrival {h : Fin 4} {named : Nat → Prop} {effect : State → State} {s : State}
    (effects : ∃ m, Touch h named m (heard .crib s) (effect (heard .crib s))) :
    ∃ m, Touch h named m s (onArrival .crib effect s) := by
  cases pin : s.resetPin with
  | true =>
    rw [onArrival_reset _ _ _ pin]
    exact ⟨false, touch_refl s⟩
  | false =>
    obtain ⟨m, touch⟩ := effects
    rw [onArrival_released _ _ _ pin]
    exact ⟨m, (touch.after (touch_heard s)).before (touch_grants _)⟩

theorem touch_exec {s t : State} {h : Fin 4} {i : Instr}
    (gauge : (∃ g tag, i = .contact h g tag) ∨ (∃ g, i = .sample h g) ∨ (∃ g, i = .release h g))
    (runs : exec i s = .next t) : ∃ m, Touch h (NamedBy s h i) m s t := by
  have names : NamesCapture h (NamedBy s h i) (heard .crib s) := fun c slot =>
    .inl (Readings.armedOn_eq_some.2 ⟨c, slot, rfl⟩)
  rcases gauge with ⟨g, tag, rfl⟩ | ⟨g, rfl⟩ | ⟨g, rfl⟩
  · obtain rfl : onArrival .crib (gaugeContact h g tag) s = t := Host.Outcome.next.inj runs
    exact touch_arrival (touch_gaugeContact names (fun n bound => .inr ⟨g, tag, rfl, bound⟩) g)
  · obtain rfl : onArrival .crib (gaugeSample h g) s = t := Host.Outcome.next.inj runs
    exact touch_arrival (touch_gaugeSample names g)
  · obtain rfl : onArrival .crib (gaugeRelease h g) s = t := Host.Outcome.next.inj runs
    exact touch_arrival ⟨false, touch_gaugeRelease names g⟩

/-- Settles O32: a gauge frame touches its head, the records it names and at most one mark. -/
theorem gaugeFramesTouchOneHead : Obligations.GaugeFramesTouchOneHead := by
  intro s t h i gauge runs
  obtain ⟨m, touch⟩ := touch_exec gauge runs
  have sweep : t.sweep = s.sweep
      ∨ t.sweep = { s.sweep with marks := s.sweep.marks - 1, otherwise := s.sweep.otherwise + 1 } := by
    rw [touch.sweep]
    cases m with
    | true => exact .inr rfl
    | false => exact .inl rfl
  have others : ∀ n, armedOn s h ≠ some n → (∀ g tag, i = .contact h g tag → tableGet s.tagMap tag.toNat ≠ some n) →
      recordAt t n = recordAt s n := by
    intro n unarmed untagged
    refine touch.others n ?_
    rintro (armed | ⟨g, tag, is, bound⟩)
    · exact unarmed armed
    · exact untagged g tag is bound
  have rest := touch.rest
  refine ⟨touch.heads, others, touch.records, sweep, ?_, ?_, ?_, ?_, ?_, ?_, ?_, ?_, ?_, ?_, ?_, ?_, ?_, ?_, ?_, ?_, ?_, ?_,
    ?_, ?_, ?_, ?_, ?_, touch.notices⟩
  all_goals rw [rest]

end Sys2Proof.Touches

/-! PROOFS. The sweep's steps in order, the judgement of an assembly, and the effect of an evaluation (R8 to R11, R34 to
R36). -/

namespace Sys2Proof.Sweeps

open Sys2Proof Sys2Proof.Machine Sys2Proof.Transitions

/-! ## The engine -/

theorem nextMarked_eq_some {s : State} (canonical : Records.Canonical s.assemblies) {n : Nat} {r : Assembly}
    (record : recordAt s n = some r) (marked : r.marked = true) (above : s.sweep.cursor ≤ n)
    (lowest : ∀ m r', s.sweep.cursor ≤ m → m < n → recordAt s m = some r' → r'.marked = false) :
    nextMarked s = some n := by
  match next : nextMarked s with
  | none => exact absurd (Counted.nextMarked_none next record marked) (Nat.not_lt.2 above)
  | some m =>
    obtain ⟨⟨r', record', marked'⟩, above', first⟩ := Counted.nextMarked_some canonical next
    rcases Nat.lt_or_eq_of_le (first n r record marked above) with below | same
    · exact absurd marked' (by simp [lowest m r' above' below record'])
    · rw [same]

theorem nextMarked_eq_none {s : State} (canonical : Records.Canonical s.assemblies)
    (none_ : ∀ m r, s.sweep.cursor ≤ m → recordAt s m = some r → r.marked = false) : nextMarked s = none := by
  match next : nextMarked s with
  | none => rfl
  | some m =>
    obtain ⟨⟨r, record, marked⟩, above, -⟩ := Counted.nextMarked_some canonical next
    exact absurd marked (by simp [none_ m r above record])

theorem exec_sweepStep {s : State} (running : s.sweep.state = .running) :
    exec .sweepStep s = .next (grants (engineStep s)) :=
  congrArg Host.Outcome.next (if_pos running)

theorem exec_sweepEnd {s : State} (running : s.sweep.state = .running) (done : nextMarked s = none) :
    exec .sweepEnd s = .next (grants (endSweep s)) :=
  congrArg Host.Outcome.next (if_pos ⟨running, done⟩)

theorem engineStep_some {s : State} {n : Nat} (next : nextMarked s = some n) : engineStep s = stepOn n s := by
  rw [engineStep, next]

theorem engineStep_none {s : State} (done : nextMarked s = none) : engineStep s = endSweep s := by
  rw [engineStep, done]

theorem stepOn_eq (n : Nat) (s : State) :
    stepOn n s = { evaluate n s with
      sweep := { s.sweep with
        cursor := n + 1, marks := s.sweep.marks - 1, stepped := s.sweep.stepped + 1 } } := by
  unfold stepOn
  rw [evaluate_frame]

theorem ownMoveSweep_from {s : State} {source : SweepState} (at_ : s.sweep.state = source) (target : SweepState) :
    ownMoveSweep source target s
      = replied { s with sweep := { s.sweep with state := target } } .ok (.sweep target s.sweep.cursor s.sweep.marks) :=
  if_pos at_

theorem ownMoveSweep_refused {s : State} {source : SweepState} (other : s.sweep.state ≠ source) (target : SweepState) :
    ownMoveSweep source target s = replied s .state (.sweep s.sweep.state s.sweep.cursor s.sweep.marks) :=
  if_neg other

/-! ## The judgement (R9, R10) -/

theorem complete_iff {e : Option Entry} : complete e = true ↔ ∃ y, e = some y ∧ y.fresh = true := by
  simp [complete, Option.any_eq_true]

theorem isClamped_iff {e : Option Entry} : isClamped e = true ↔ ∃ y, e = some y ∧ y.clamped = true := by
  simp [isClamped, Option.any_eq_true]

theorem withinTolerance_eq_false {e : Option Entry} {nominal lower upper : Int} :
    withinTolerance e nominal lower upper = false
      ↔ ∃ y, e = some y ∧ (y.value - nominal < lower ∨ upper < y.value - nominal) := by
  cases e with
  | none => simp [withinTolerance]
  | some y =>
    simp only [withinTolerance, Option.all_some, Bool.and_eq_false_iff, decide_eq_false_iff_not, Int.not_le,
      Option.some.injEq, exists_eq_left']

theorem needsRadius_iff {t : TypeRecord} : needsRadius t = true ↔ t.axes = .lengthRadius := decide_eq_true_iff

theorem allComplete_iff {t : TypeRecord} {r : Assembly} :
    allComplete t r = true ↔ complete r.length = true ∧ (needsRadius t = true → complete r.radius = true) := by
  unfold allComplete
  cases needsRadius t <;> simp

section Verdict

variable {t : TypeRecord} {r : Assembly}

/-- A required axis carries a clamp mark (R10). -/
def clampMarked (t : TypeRecord) (r : Assembly) : Bool := isClamped r.length || (needsRadius t && isClamped r.radius)

/-- The radius is required and outside its tolerance (R10). -/
def radiusOff (t : TypeRecord) (r : Assembly) : Bool :=
  needsRadius t && !withinTolerance r.radius t.nominalR t.lowerR t.upperR

theorem verdictOf_incomplete (incomplete : allComplete t r = false) : verdictOf t r = .incomplete := if_pos incomplete

theorem verdictOf_clamped (done : allComplete t r = true) (marked : clampMarked t r = true) : verdictOf t r = .clamped :=
  (if_neg (by simp [done])).trans (if_pos marked)

theorem verdictOf_failLength (done : allComplete t r = true) (unmarked : clampMarked t r = false)
    (long : withinTolerance r.length t.nominalL t.lowerL t.upperL = false) : verdictOf t r = .failLength :=
  (if_neg (by simp [done])).trans ((if_neg (Bool.eq_false_iff.1 unmarked)).trans (if_pos long))

theorem verdictOf_failRadius (done : allComplete t r = true) (unmarked : clampMarked t r = false)
    (right : withinTolerance r.length t.nominalL t.lowerL t.upperL = true) (wide : radiusOff t r = true) :
    verdictOf t r = .failRadius :=
  (if_neg (by simp [done])).trans ((if_neg (Bool.eq_false_iff.1 unmarked)).trans ((if_neg (by simp [right])).trans
    (if_pos wide)))

theorem verdictOf_pass (done : allComplete t r = true) (unmarked : clampMarked t r = false)
    (right : withinTolerance r.length t.nominalL t.lowerL t.upperL = true) (inside : radiusOff t r = false) :
    verdictOf t r = .pass :=
  (if_neg (by simp [done])).trans ((if_neg (Bool.eq_false_iff.1 unmarked)).trans ((if_neg (by simp [right])).trans
    (if_neg (Bool.eq_false_iff.1 inside))))

theorem outcomeOf_pass (pass : verdictOf t r = .pass) (start : AsmState) : outcomeOf t r start = .preset := by
  rw [outcomeOf, pass]

theorem outcomeOf_rejected (fails : verdictOf t r = .clamped ∨ verdictOf t r = .failLength ∨ verdictOf t r = .failRadius)
    (start : AsmState) : outcomeOf t r start = .rejected := by
  rcases fails with verdict | verdict | verdict
  all_goals rw [outcomeOf, verdict]

theorem outcomeOf_incomplete (incomplete : verdictOf t r = .incomplete) (start : AsmState) :
    outcomeOf t r start = if r.length.isNone && r.radius.isNone then .built
      else if start = .remeasure ∧ complete r.length = false ∧ complete r.radius = false then .remeasure
      else .partly := by
  rw [outcomeOf, incomplete]

end Verdict

/-! ## The effect (R8, R11) -/

section Effect

variable {s : State} {n : Nat} {r : Assembly}

theorem outOfCrib_iff {a : AsmState} : outOfCrib a = true ↔ a = .issued ∨ a = .inService ∨ a = .withdrawn := by
  cases a <;> decide

theorem evaluated_contactable {t : TypeRecord} (free : contactable r.state = true) :
    evaluated t r = { r with state := outcomeOf t r r.state, marked := false } := by
  unfold evaluated
  cases state : r.state with
  | built | partly | preset | rejected | remeasure => rfl
  | measuring | issued | inService | withdrawn | retired => simp [state, contactable] at free

theorem evaluated_out {t : TypeRecord} (out : outOfCrib r.state = true) :
    evaluated t r = { r with recheck := r.recheck || outcomeOf t r r.state ≠ .preset, marked := false } := by
  unfold evaluated
  cases state : r.state with
  | issued | inService | withdrawn => rfl
  | built | partly | preset | rejected | remeasure | measuring | retired => simp [state, outOfCrib] at out

theorem evaluated_resting {t : TypeRecord} (rests : r.state = .measuring ∨ r.state = .retired) :
    evaluated t r = { r with marked := false } := by
  unfold evaluated
  rcases rests with state | state
  all_goals rw [state]

theorem evaluate_unmeasured (record : recordAt s n = some r) (other : r.state ≠ .measuring) :
    evaluate n s = putAssembly n (evaluated (typeAt s r.type) r) s := by
  rw [evaluate, record]
  exact if_neg other

theorem evaluate_measured (record : recordAt s n = some r) (measuring : r.state = .measuring) :
    evaluate n s
      = { putAssembly n (evaluated (typeAt s r.type) r) s with
          heads := s.heads.map (reviewPrior (typeAt s r.type) r n) } := by
  rw [evaluate, record]
  exact if_pos measuring

theorem reviewPrior_armed {t : TypeRecord} {x : Head} {c : Capture} (armed : x.slot = .armed c)
    (names : c.assembly = n) :
    reviewPrior t r n x = { x with slot := .armed { c with prior := outcomeOf t r c.prior } } := by
  rw [reviewPrior, armed]
  exact if_pos names

theorem reviewPrior_other {t : TypeRecord} {x : Head} (other : ∀ c, x.slot = .armed c → c.assembly ≠ n) :
    reviewPrior t r n x = x := by
  unfold reviewPrior
  split
  next c armed => exact if_neg (other c armed)
  all_goals rfl

end Effect

/-- Settles O40: the engine's step and its end, the verdicts in order, and the effect of an evaluation by the state. -/
theorem sweepStepsInOrder : Obligations.SweepStepsInOrder := by
  refine ⟨fun s canonical => ⟨fun running => ⟨fun n r record marked above lowest => ?_, fun unmarked i is => ?_⟩,
    fun rt taken => ⟨fun running => ?_, fun suspended => ?_, fun other => ?_, fun other => ?_⟩⟩,
    fun t r start => ?_, fun s n r record => ?_⟩
  · rw [exec_sweepStep running, engineStep_some (nextMarked_eq_some ⟨canonical.1, canonical.2.1⟩ record marked above lowest),
      stepOn_eq]
  · have done := nextMarked_eq_none ⟨canonical.1, canonical.2.1⟩ unmarked
    rcases is with rfl | rfl
    · rw [exec_sweepStep running, engineStep_none done]
      rfl
    · rw [exec_sweepEnd running done]
      rfl
  · exact congrArg Host.Outcome.next (openRequest_replied 0x60 rt _ s _ .ok _ taken (ownMoveSweep_from (s := heard .crib s) running .suspended))
  · exact congrArg Host.Outcome.next (openRequest_replied 0x61 rt _ s _ .ok _ taken (ownMoveSweep_from (s := heard .crib s) suspended .running))
  · exact congrArg Host.Outcome.next (openRequest_replied 0x60 rt _ s _ .state _ taken (ownMoveSweep_refused (s := heard .crib s) other .suspended))
  · exact congrArg Host.Outcome.next (openRequest_replied 0x61 rt _ s _ .state _ taken (ownMoveSweep_refused (s := heard .crib s) other .running))
  · intro fresh clamped outside both allComplete_ marked longOff wideOff
    have done : allComplete t r = true ↔ allComplete_ := by
      rw [allComplete_iff, complete_iff, complete_iff, needsRadius_iff]
    have clamp : clampMarked t r = true ↔ marked := by
      rw [clampMarked, Bool.or_eq_true, Bool.and_eq_true, isClamped_iff, isClamped_iff, needsRadius_iff]
    have long : withinTolerance r.length t.nominalL t.lowerL t.upperL = false ↔ longOff := withinTolerance_eq_false
    have wide : radiusOff t r = true ↔ wideOff := by
      rw [radiusOff, Bool.and_eq_true, Bool.not_eq_true', withinTolerance_eq_false, needsRadius_iff]
    have unclamped : ¬marked → clampMarked t r = false := fun un => Bool.eq_false_iff.2 (mt clamp.1 un)
    have inLength : ¬longOff → withinTolerance r.length t.nominalL t.lowerL t.upperL = true := fun in_ =>
      Bool.not_eq_false _ ▸ mt long.1 in_
    refine ⟨fun incomplete => ?_, fun all marked_ => ?_, fun all un off => ?_, fun all un in_ off => ?_,
      fun all un in_ inner => ?_⟩
    · have verdict := verdictOf_incomplete (Bool.eq_false_iff.2 (mt done.1 incomplete))
      have outcome := outcomeOf_incomplete verdict start
      refine ⟨verdict, fun noLength noRadius => ?_, fun some_ => ?_⟩
      · rw [outcome, noLength, noRadius]
        rfl
      · have entered : ¬(r.length.isNone && r.radius.isNone) = true := by
          simpa [Option.isNone_iff_eq_none, or_iff_not_imp_left] using some_
        rw [if_neg entered] at outcome
        refine ⟨fun again noLength noRadius => ?_, fun other => ?_⟩
        · rw [outcome]
          exact if_pos ⟨again, Bool.eq_false_iff.2 (mt complete_iff.1 noLength),
            Bool.eq_false_iff.2 (mt complete_iff.1 noRadius)⟩
        · rw [outcome]
          refine if_neg fun ⟨again, noLength, noRadius⟩ => ?_
          rcases other with fresh_ | fresh_ | fresh_
          · exact fresh_ again
          · exact Bool.eq_false_iff.1 noLength (complete_iff.2 fresh_)
          · exact Bool.eq_false_iff.1 noRadius (complete_iff.2 fresh_)
    · have verdict := verdictOf_clamped (done.2 all) (clamp.2 marked_)
      exact ⟨verdict, outcomeOf_rejected (.inl verdict) start⟩
    · have verdict := verdictOf_failLength (done.2 all) (unclamped un) (long.2 off)
      exact ⟨verdict, outcomeOf_rejected (.inr (.inl verdict)) start⟩
    · have verdict := verdictOf_failRadius (done.2 all) (unclamped un) (inLength in_) (wide.2 off)
      exact ⟨verdict, outcomeOf_rejected (.inr (.inr verdict)) start⟩
    · have verdict := verdictOf_pass (done.2 all) (unclamped un) (inLength in_) (Bool.eq_false_iff.2 (mt wide.1 inner))
      exact ⟨verdict, outcomeOf_pass verdict start⟩
  · intro t stored
    refine ⟨fun crib => ?_, fun out => ?_, fun retired => ?_, fun measuring => ?_⟩
    · have free := Contacts.contactable_iff.2 crib
      rw [evaluate_unmeasured record (Records.ne_measuring_of_contactable free), evaluated_contactable free]
      rfl
    · have away : evaluate n s = _ := (evaluate_unmeasured record (by rcases out with state | state | state <;> simp [state])).trans
        (congrArg (putAssembly n · s) (evaluated_out (outOfCrib_iff.2 out)))
      refine ⟨fun preset => away.trans ?_, fun other => away.trans ?_⟩
      · have unchecked : decide (outcomeOf (typeAt s r.type) r r.state ≠ .preset) = false := by simpa using preset
        rw [unchecked, Bool.or_false]
        rfl
      · have checked : decide (outcomeOf (typeAt s r.type) r r.state ≠ .preset) = true := by simpa using other
        rw [checked, Bool.or_true]
        rfl
    · rw [evaluate_unmeasured record (by simp [retired]), evaluated_resting (.inr retired)]
      rfl
    · have whole := evaluate_measured record measuring
      refine ⟨?_, fun h free => ?_, fun h c armed names => ?_⟩
      · rw [whole, evaluated_resting (.inl measuring)]
        rfl
      · rw [whole]
        exact (Heads.headAt_map _ _ h).trans (reviewPrior_other fun c armed names =>
          free (Readings.armedOn_eq_some.2 ⟨c, armed, names⟩))
      · rw [whole]
        exact (Heads.headAt_map _ _ h).trans (reviewPrior_armed armed names)

end Sys2Proof.Sweeps

/-! PROOFS. Formatted output slots (R125 to R128) and the validity of a profile (R124). -/

namespace Sys2Proof.Slots

open Sys2Proof Sys2Proof.Machine

/-! ## Sources -/

theorem source?_above {k : Nat} (above : 9 < k) : source? k = none := by
  match k with
  | _ + 10 => rfl

/-- What a listed code says about its source (R125). -/
theorem source?_some {k : Nat} {src : Source} (known : source? k = some src) :
    k ≤ 9 ∧ (lengthKind src = true ↔ k ≤ 5) ∧ (src = .length ↔ k = 0) := by
  unfold source? at known
  split at known
  case h_11 => cases known
  all_goals
    cases known
    decide

theorem source?_listed {k : Nat} (low : k ≤ 9) : ∃ src, source? k = some src := by
  match k with
  | 0 | 1 | 2 | 3 | 4 | 5 | 6 | 7 | 8 | 9 => exact ⟨_, rfl⟩

/-! ## Valid profiles (R124) -/

/-- A slot of a valid profile: a listed source, one to nine digits, and a unit for a length-kind source. -/
def SlotValid (y : OutputSlot) : Prop :=
  y.source ≤ 9 ∧ 1 ≤ y.width ∧ y.width ≤ 9 ∧ (y.source ≤ 5 → 1 ≤ y.unit ∧ y.unit ≤ 4)

theorem slotReason_eq_none {position : Nat} {y : OutputSlot} : slotReason position y = none ↔ SlotValid y := by
  unfold slotReason SlotValid
  cases known : source? y.source with
  | none =>
    have unlisted : ¬y.source ≤ 9 := fun low => by
      obtain ⟨src, is⟩ := source?_listed low
      rw [known] at is
      cases is
    simp [unlisted]
  | some src =>
    obtain ⟨low, kind, -⟩ := source?_some known
    simp only [kind]
    split_ifs with width unit
    · simp only [false_iff]
      omega
    · simp only [false_iff]
      omega
    · simp only [true_iff]
      omega

theorem slotsReason_eq_none {slots : List OutputSlot} {position : Nat} :
    slotsReason position slots = none ↔ ∀ y ∈ slots, SlotValid y := by
  induction slots generalizing position with
  | nil => simp [slotsReason]
  | cons y rest ih => rw [slotsReason, Option.or_eq_none_iff, slotReason_eq_none, ih, List.forall_mem_cons]

theorem profileValid_iff {p : Profile} : profileValid p = true ↔ p.slots ≠ [] ∧ ∀ y ∈ p.slots, SlotValid y := by
  rw [profileValid, Option.isNone_iff_eq_none, profileReason]
  cases slots : p.slots with
  | nil => simp
  | cons y rest => simp [slotsReason_eq_none]

/-! ## The value of a slot's source (R125, R126) -/

/-- The value of the source with a code; none when the source is absent or unlisted (log 19). -/
def slotValue (t : TypeRecord) (n : Nat) (r : Assembly) (code : Nat) : Option Int :=
  (source? code).bind (sourceValue t n r)

theorem formatSlot_absent {t : TypeRecord} {n : Nat} {r : Assembly} {slot : OutputSlot}
    (absent : slotValue t n r slot.source = none) (offset : Int) : formatSlot offset t n r slot = absentSlot slot := by
  unfold formatSlot
  unfold slotValue at absent
  cases known : source? slot.source with
  | none => rfl
  | some src =>
    rw [known, Option.bind_some] at absent
    rw [Option.bind_some, absent]
    rfl

theorem formatSlot_present {t : TypeRecord} {n : Nat} {r : Assembly} {slot : OutputSlot} {v : Int}
    (present : slotValue t n r slot.source = some v) (offset : Int) :
    ∃ src, source? slot.source = some src ∧ formatSlot offset t n r slot = finishSlot offset slot src v := by
  obtain ⟨src, known, value⟩ := Option.bind_eq_some_iff.1 present
  refine ⟨src, known, ?_⟩
  unfold formatSlot
  rw [known, Option.bind_some, value]
  rfl

theorem weight_toNat (w : Nat) (b : Bool) : w * b.toNat = if b then w else 0 := by cases b <;> simp

/-! ## The stages (R127, R128) -/

/-- The value on the gauge line. -/
def linedValue (offset : Int) (source : Nat) (v : Int) : Int :=
  if source = 0 then max (-999999999) (min 999999999 (v + offset)) else v

/-- The value in the slot's unit. -/
def convertedValue (source unit : Nat) (v : Int) : Int :=
  if 5 < source then v
  else if unit = 1 then roundHalfOut v 10
  else if unit = 3 then roundHalfOut (v * 10) 254
  else if unit = 4 then roundHalfOut (v * 100) 254
  else v

/-- The value cut to `w` digits. -/
def cutValue (w : Nat) (x : Int) : Int := max (-(10 ^ w - 1)) (min (10 ^ w - 1) x)

theorem gaugeLine_eq {offset v : Int} {k : Nat} {src : Source} (known : source? k = some src) :
    gaugeLine offset src v
      = (linedValue offset k v,
          decide (k = 0 ∧ max (-999999999) (min 999999999 (v + offset)) ≠ v + offset)) := by
  obtain ⟨-, -, length⟩ := source?_some known
  unfold gaugeLine linedValue
  by_cases zero : k = 0
  · rw [if_pos (length.2 zero), if_pos zero, LengthArithmetic.clampLength_eq]
    rw [Bool.decide_and, decide_eq_true zero, Bool.true_and]
    rfl
  · rw [if_neg (mt length.1 zero), if_neg zero]
    simp [zero]

theorem convertUnit_eq (unit : Nat) (v : Int) :
    convertUnit unit v = if unit = 1 then roundHalfOut v 10 else if unit = 3 then roundHalfOut (v * 10) 254
      else if unit = 4 then roundHalfOut (v * 100) 254 else v := by
  match unit with
  | 0 | 1 | 2 | 3 | 4 => rfl
  | k + 5 => simp [convertUnit]

theorem converted_eq {k : Nat} {src : Source} (known : source? k = some src) (unit : Nat) (v : Int) :
    (if lengthKind src then convertUnit unit v else v) = convertedValue k unit v := by
  obtain ⟨-, kind, -⟩ := source?_some known
  unfold convertedValue
  by_cases high : 5 < k
  · rw [if_pos high, if_neg (mt kind.1 (Nat.not_le.2 high))]
  · rw [if_neg high, if_pos (kind.2 (Nat.not_lt.1 high)), convertUnit_eq]

theorem limitDigits_eq (w : Nat) (x : Int) : limitDigits w x = (cutValue w x, decide (cutValue w x ≠ x)) := by
  have top : ((10 ^ w - 1 : Nat) : Int) = 10 ^ w - 1 := by
    rw [Nat.cast_sub (Nat.one_le_pow _ _ (by decide))]
    simp
  unfold limitDigits cutValue
  rw [← top]
  generalize 10 ^ w - 1 = n
  split_ifs with large negative
  · have cut : max (-(n : Int)) (min n x) = -n := by omega
    rw [cut, decide_eq_true (by omega)]
  · have cut : max (-(n : Int)) (min n x) = n := by omega
    rw [cut, decide_eq_true (by omega)]
  · have cut : max (-(n : Int)) (min n x) = x := by omega
    rw [cut, decide_eq_false (by simp)]

/-! ## A whole slot -/

/-- The value of a present slot before its digits are limited. -/
def signedValue (offset : Int) (slot : OutputSlot) (v : Int) : Int :=
  if slot.negate then -convertedValue slot.source slot.unit (linedValue offset slot.source v)
  else convertedValue slot.source slot.unit (linedValue offset slot.source v)

/-- A present source's slot: saturated by the gauge line or by its digits, and blank at a value of 0 only. -/
def presentSlot (offset : Int) (slot : OutputSlot) (v : Int) : SentSlot :=
  { width := slot.width
    saturated := decide ((slot.source = 0 ∧ max (-999999999) (min 999999999 (v + offset)) ≠ v + offset)
      ∨ cutValue slot.width (signedValue offset slot v) ≠ signedValue offset slot v)
    blank := slot.blankZero && decide (cutValue slot.width (signedValue offset slot v) = 0)
    absent := false
    value := cutValue slot.width (signedValue offset slot v) }

theorem blanked (blank : Bool) (x : Int) : (if blank && decide (x = 0) then 0 else x) = x := by
  split_ifs with zero
  · exact (of_decide_eq_true (Bool.and_eq_true_iff.1 zero).2).symm
  · rfl

theorem finishSlot_eq {slot : OutputSlot} {src : Source} (known : source? slot.source = some src) (offset v : Int) :
    finishSlot offset slot src v = presentSlot offset slot v := by
  unfold finishSlot presentSlot
  dsimp only
  rw [gaugeLine_eq known, converted_eq known, limitDigits_eq, blanked, ← Bool.decide_or]
  rfl

theorem formatSlot_some {t : TypeRecord} {n : Nat} {r : Assembly} {slot : OutputSlot} {v : Int}
    (present : slotValue t n r slot.source = some v) (offset : Int) :
    formatSlot offset t n r slot = presentSlot offset slot v := by
  obtain ⟨src, known, formatted⟩ := formatSlot_present present offset
  rw [formatted, finishSlot_eq known]

/-! ## Bounds and flags -/

theorem cutValue_bound (w : Nat) (x : Int) : (cutValue w x).natAbs ≤ 10 ^ w - 1 := by
  have top : ((10 ^ w - 1 : Nat) : Int) = 10 ^ w - 1 := by
    rw [Nat.cast_sub (Nat.one_le_pow _ _ (by decide))]
    simp
  unfold cutValue
  rw [← top]
  omega

/-- A cut to at least one digit is 0 for 0 alone. -/
theorem cutValue_eq_zero {w : Nat} (wide : 1 ≤ w) {x : Int} (zero : cutValue w x = 0) : x = 0 := by
  have ten : (10 : Int) ≤ 10 ^ w := by
    calc (10 : Int) = 10 ^ 1 := by norm_num
      _ ≤ 10 ^ w := pow_le_pow_right₀ (by norm_num) wide
  unfold cutValue at zero
  omega

/-- A length limited on the gauge line is not 0 in any unit. -/
theorem convertedValue_limit {v : Int} (limit : v = 999999999 ∨ v = -999999999) (unit : Nat) :
    convertedValue 0 unit v ≠ 0 := by
  unfold convertedValue
  rcases limit with rfl | rfl
  all_goals
    split_ifs
    all_goals decide

/-- A saturated slot of at least one digit is not 0. -/
theorem presentSlot_saturated {offset v : Int} {slot : OutputSlot} (wide : 1 ≤ slot.width)
    (saturated : (presentSlot offset slot v).saturated = true) : (presentSlot offset slot v).value ≠ 0 := by
  intro zero
  have signed : signedValue offset slot v = 0 := cutValue_eq_zero wide zero
  have cut : cutValue slot.width (signedValue offset slot v) = 0 := zero
  rcases of_decide_eq_true saturated with ⟨source, limited⟩ | digits
  · have lined : linedValue offset slot.source v = 999999999 ∨ linedValue offset slot.source v = -999999999 := by
      rw [linedValue, if_pos source]
      omega
    have nonzero := convertedValue_limit lined slot.unit
    unfold signedValue at signed
    rw [source] at signed lined nonzero
    split at signed
    · exact nonzero (Int.neg_eq_zero.1 signed)
    · exact nonzero signed
  · exact digits (cut.trans signed.symm)

/-! ## The sources spelled (R125, R126) -/

theorem stateFlags_eq (t : TypeRecord) (r : Assembly) :
    stateFlags t r
      = (if r.length.any fun e => !e.fresh then 1 else 0) + (if r.radius.any fun e => !e.fresh then 2 else 0)
        + (if r.length.isNone || (decide (t.axes = .lengthRadius) && r.radius.isNone) then 4 else 0)
        + (if r.length.any (·.clamped) || r.radius.any (·.clamped) then 8 else 0)
        + (if r.recheck then 16 else 0) + (if r.marked then 32 else 0)
        + (if decide (r.state = .withdrawn) then 64 else 0) := by
  simp only [stateFlags, weight_toNat, needsRadius, isClamped]

theorem slotValue_eq (t : TypeRecord) (n : Nat) (r : Assembly) (code : Nat) :
    slotValue t n r code
      = if code = 0 then r.length.map (·.value)
        else if code = 1 then r.radius.map (·.value)
        else if code = 2 then some r.lengthWear
        else if code = 3 then some r.radiusWear
        else if code = 4 then some t.nominalL
        else if code = 5 then some t.nominalR
        else if code = 6 then
          (if t.lifeLimit = 0 then none else some (max 0 ((t.lifeLimit : Int) - (r.lifeUsed : Int))))
        else if code = 7 then some (n : Int)
        else if code = 8 then some (r.type : Int)
        else if code = 9 then some (stateFlags t r : Int)
        else none := by
  match code with
  | 0 | 1 | 2 | 3 | 4 | 5 | 7 | 8 | 9 => rfl
  | 6 =>
    have left : ((t.lifeLimit - r.lifeUsed : Nat) : Int) = max 0 ((t.lifeLimit : Int) - (r.lifeUsed : Int)) := by omega
    simp [slotValue, source?, sourceValue, left]
  | k + 10 => simp [slotValue, source?]

/-- Settles O56: an absent source and a present one, then the bounds and flags of either. -/
theorem slotValuesFitTheirWidth : Obligations.SlotValuesFitTheirWidth := by
  intro offset t n r slot x lim weight both flags sourced
  have value : slotValue t n r slot.source = sourced := by
    rw [slotValue_eq, stateFlags_eq]
  have missing : sourced = none → x = absentSlot slot := fun absent => formatSlot_absent (value.trans absent) offset
  have made : ∀ v, sourced = some v → x = presentSlot offset slot v := fun v present =>
    formatSlot_some (value.trans present) offset
  refine ⟨missing, made, ?_⟩
  rcases Option.eq_none_or_eq_some sourced with known | ⟨v, known⟩
  · rw [missing known]
    simp [absentSlot]
  · rw [made v known]
    refine ⟨cutValue_bound _ _, rfl, fun blank => ?_, fun absent => ?_, fun wide ⟨saturated, blank⟩ => ?_⟩
    · exact ⟨of_decide_eq_true (Bool.and_eq_true_iff.1 blank).2, rfl⟩
    · cases absent
    · exact presentSlot_saturated wide saturated (of_decide_eq_true (Bool.and_eq_true_iff.1 blank).2)

end Sys2Proof.Slots

/-! PROOFS. The take of a waiting entry, its frame and the drain of a profile switch (R134, R141 to R145). -/

namespace Sys2Proof.Takes

open Sys2Proof Sys2Proof.Machine Sys2Proof.Transitions

/-! ## The entry taken (R141, R143) -/

section Entry

variable {s : State} {e : WaitEntry} {x : MachineDef}

theorem eligible_iff (machine : machineAt s e.machine = some x) :
    eligible s e = true ↔ x.paused = false ∧ (x.switch = none ∨ e.marked = true) := by
  rw [eligible, machine]
  simp

/-- An entry whose machine is paused, or that a pending switch holds back without the mark. -/
theorem ineligible (machine : machineAt s e.machine = some x)
    (held : x.paused = true ∨ (x.switch ≠ none ∧ e.marked = false)) : eligible s e = false := by
  rw [Bool.eq_false_iff, ne_eq, eligible_iff machine]
  rintro ⟨free, ready⟩
  rcases held with paused | ⟨pending, unmarked⟩
  · rw [paused] at free
    cases free
  · rcases ready with none_ | marked
    · exact pending none_
    · rw [unmarked] at marked
      cases marked

variable {before after : List WaitEntry}

theorem nextTake_eq (room : s.handoff.length < 4) (list : s.waitList = before ++ e :: after)
    (held : ∀ w ∈ before, eligible s w = false) (is : eligible s e = true) : nextTake s = some e := by
  have first : s.waitList.find? (eligible s) = some e :=
    List.find?_eq_some_iff_append.2 ⟨is, before, after, list, fun w mem => by rw [held w mem]; rfl⟩
  exact (if_pos room).trans first

/-- The state after the take of the oldest eligible entry, before its drain. -/
theorem entryMoved_eq (list : s.waitList = before ++ e :: after) (held : ∀ w ∈ before, eligible s w = false)
    (is : eligible s e = true) :
    entryMoved e s
      = { s with
          waitList := before ++ after
          handoff := s.handoff ++ [⟨e.machine, e.pocket, toolContent s ⟨e.machine, e.pocket⟩, false⟩] } := by
  have fresh : e ∉ before := fun mem => by
    have := held e mem
    rw [is] at this
    cases this
  rw [entryMoved, list, List.erase_append_right _ fresh, List.erase_cons_head]

end Entry

/-! ## The drain (R134) -/

section Drain

variable {s : State} {e : WaitEntry} {x : MachineDef} {w : ProfileSwitch}

theorem takeEntry_unmarked (unmarked : e.marked = false) : takeEntry e s = entryMoved e s :=
  if_neg (by simp [unmarked])

theorem takeEntry_marked (marked : e.marked = true) : takeEntry e s = drainSwitch e.machine (entryMoved e s) :=
  if_pos marked

theorem drainSwitch_last (machine : machineAt s e.machine = some x) (switch : x.switch = some w) (last : w.marked ≤ 1) :
    drainSwitch e.machine s
      = notify (.profileSwitchDone e.machine w.target x.active true w.requested)
          (putMachine e.machine { x with active := w.target, switch := none } s) := by
  rw [drainSwitch, machine]
  dsimp only
  rw [switch]
  exact if_pos last

theorem drainSwitch_more (machine : machineAt s e.machine = some x) (switch : x.switch = some w) (more : 2 ≤ w.marked) :
    drainSwitch e.machine s
      = putMachine e.machine { x with switch := some { w with marked := w.marked - 1 } } s := by
  rw [drainSwitch, machine]
  dsimp only
  rw [switch]
  exact if_neg (Nat.not_le.2 more)

theorem exec_handoffTake (next : nextTake s = some e) : exec .handoffTake s = .next (grants (takeEntry e s)) := by
  have arm : exec .handoffTake s = execHandoffTake s := rfl
  rw [arm, execHandoffTake, next]

theorem exec_atDrain (next : nextTake s = some e) (machine : machineAt s e.machine = some x) (marked : e.marked = true)
    (switch : x.switch = some w) (last : w.marked = 1) :
    exec (.atDrain e.machine) s = .next (grants (takeEntry e s)) := by
  have drains : drainsAt s e.machine e = true := by simp [drainsAt, machine, marked, switch, last]
  have arm : exec (.atDrain e.machine) s = execAtDrain e.machine s := rfl
  rw [arm, execAtDrain, next]
  dsimp only
  rw [if_pos drains]

end Drain

/-! ## The frame (R144, R145) -/

section Content

variable {s : State} {p : Place} {x : MachineDef} {n : Nat} {r : Assembly}

theorem toolContent_empty (empty : occupant s p = none) : toolContent s p = .empty := by rw [toolContent, empty]

theorem toolContent_invalid (holds : occupant s p = some n) (machine : machineAt s p.machine = some x)
    (record : recordAt s n = some r) (invalid : profileValid (activeProfile x) = false) : toolContent s p = .noProfile := by
  rw [toolContent, holds, machine]
  dsimp only
  rw [record]
  exact if_pos invalid

theorem toolContent_valid (holds : occupant s p = some n) (machine : machineAt s p.machine = some x)
    (record : recordAt s n = some r) (valid : profileValid (activeProfile x) = true) :
    toolContent s p
      = if r.state = .withdrawn then
          .locked n x.active ((activeProfile x).slots.map (formatSlot (activeProfile x).offset (typeAt s r.type) n r))
        else .served n x.active ((activeProfile x).slots.map (formatSlot (activeProfile x).offset (typeAt s r.type) n r)) := by
  rw [toolContent, holds, machine]
  dsimp only
  rw [record]
  exact if_neg (by simp [valid])

end Content

/-- Settles O55: the take of the oldest eligible entry with its drain, for each of the four contents of its frame. -/
theorem takeServesOldestEligible : Obligations.TakeServesOldestEligible := by
  intro s before after e x held room list heldBefore machine free ready place builds profile valid
  have is : eligible s e = true := (eligible_iff machine).2 ⟨free, ready⟩
  have passed : ∀ w ∈ before, eligible s w = false := fun w mem => by
    obtain ⟨y, at_, stops⟩ := heldBefore w mem
    exact ineligible at_ stops
  have next := nextTake_eq room list passed is
  have moved := entryMoved_eq list passed is
  have still : machineAt (entryMoved e s) e.machine = some x := machine
  have build : ∀ content, toolContent s place = content → builds content := by
    rintro _ rfl
    refine ⟨fun unmarked => ?_, fun w marked switch => ⟨fun more => ?_, fun last i which => ?_⟩⟩
    · rw [exec_handoffTake next, takeEntry_unmarked unmarked, moved]
    · rw [exec_handoffTake next, takeEntry_marked marked, drainSwitch_more still switch more, moved]
    · have runs : exec i s = .next (grants (takeEntry e s)) := by
        rcases which with rfl | rfl
        · exact exec_handoffTake next
        · exact exec_atDrain next machine marked switch last
      rw [runs, takeEntry_marked marked, drainSwitch_last still switch last.le, moved]
  have bank : activeProfile x = profile := Reads_.profileOf_eq x x.active
  have sound : profileValid (activeProfile x) = true ↔ valid := by
    rw [Slots.profileValid_iff, bank]
    rfl
  refine ⟨fun empty => build _ (toolContent_empty empty), fun n r holds record => ?_⟩
  have content := toolContent_valid (p := place) holds machine record
  rw [bank] at content
  refine ⟨fun invalid => build _ (toolContent_invalid holds machine record (Bool.eq_false_iff.2 (mt sound.1 invalid))),
    fun valid_ withdrawn => build _ ?_, fun valid_ other => build _ ?_⟩
  · rw [content (bank ▸ sound.2 valid_), if_pos withdrawn]
  · rw [content (bank ▸ sound.2 valid_), if_neg other]

end Sys2Proof.Takes

/-! PROOFS. Machine usage reports (R149 to R153). -/

namespace Sys2Proof.UsageReports

open Sys2Proof Sys2Proof.Machine

/-! ## The report as taken (R149, R150) -/

theorem limitedReport_eq (u : UsageReport) :
    limitedReport u = { u with
      minutes := min u.minutes 1000, lengthWear := LengthArithmetic.limited u.lengthWear
      radiusWear := LengthArithmetic.limited u.radiusWear } := by
  rw [limitedReport, LengthArithmetic.clampLength_eq, LengthArithmetic.clampLength_eq]

section Report

variable {s : State} {m : Nat} {report : UsageReport}

theorem reportUsage_mismatched (away : atReportedPocket s m report.pocket ≠ some report.assembly) :
    reportUsage m report s = usageMismatched m (limitedReport report) s := if_neg away

theorem reportUsage_matched {r : Assembly} (at_ : atReportedPocket s m report.pocket = some report.assembly)
    (record : recordAt s report.assembly = some r) :
    reportUsage m report s = takeUsage report.assembly ⟨m, report.pocket⟩ (limitedReport report) r s := by
  refine (if_pos at_).trans ?_
  have named : recordAt s (limitedReport report).assembly = some r := record
  rw [named]
  rfl

theorem exec_usage (released : s.resetPin = false) (defined : machineDefined s m = true) :
    exec (.usage m report) s = .next (grants (reportUsage m report (heard .hall s))) :=
  congrArg Host.Outcome.next (HandoffRequests.fromMachine_defined _ released defined)

end Report

/-! ## The withdrawal (R152, R153) -/

theorem wearExceeds_iff {limit wear : Int} :
    wearExceeds limit wear = true ↔ 0 < limit ∧ (limit < wear ∨ wear < -limit) := by
  simp only [wearExceeds, Bool.and_eq_true, decide_eq_true_eq]
  omega

section Withdrawal

variable {t : TypeRecord} {r : Assembly}

/-- The life limit is set and reached. -/
def LifeSpent (t : TypeRecord) (r : Assembly) : Prop := 0 < t.lifeLimit ∧ t.lifeLimit ≤ r.lifeUsed

/-- A wear limit is set and exceeded. -/
def WornOut (t : TypeRecord) (r : Assembly) : Prop :=
  (0 < t.lengthWearLimit ∧ (t.lengthWearLimit < r.lengthWear ∨ r.lengthWear < -t.lengthWearLimit))
    ∨ (0 < t.radiusWearLimit ∧ (t.radiusWearLimit < r.radiusWear ∨ r.radiusWear < -t.radiusWearLimit))

theorem wornOut_iff :
    (wearExceeds t.lengthWearLimit r.lengthWear || wearExceeds t.radiusWearLimit r.radiusWear) = true ↔ WornOut t r := by
  rw [Bool.or_eq_true, wearExceeds_iff, wearExceeds_iff, WornOut]

theorem withdrawalReason_break : withdrawalReason t true r = some .break_ := rfl

theorem withdrawalReason_life (spent : LifeSpent t r) : withdrawalReason t false r = some .life := if_pos spent

theorem withdrawalReason_wear (unspent : ¬LifeSpent t r) (worn : WornOut t r) :
    withdrawalReason t false r = some .wear := (if_neg unspent).trans (if_pos (wornOut_iff.2 worn))

theorem withdrawalReason_none (unspent : ¬LifeSpent t r) (unworn : ¬WornOut t r) : withdrawalReason t false r = none :=
  (if_neg unspent).trans (if_neg (mt wornOut_iff.1 unworn))

variable {s : State} {n : Nat} {p : Place} {u : UsageReport}

theorem takeUsage_withdraws {reason : Reason} (out : r.state = .issued ∨ r.state = .inService)
    (meets : withdrawalReason (typeAt s r.type) u.broken (usedRecord u r) = some reason) :
    takeUsage n p u r s = withdraw n p (typeAt s r.type) reason (usedRecord u r) s := by
  unfold takeUsage
  dsimp only
  rw [if_pos out, meets]

theorem takeUsage_updates
    (stays : (r.state ≠ .issued ∧ r.state ≠ .inService)
      ∨ withdrawalReason (typeAt s r.type) u.broken (usedRecord u r) = none) :
    takeUsage n p u r s = putAssembly n (usedRecord u r) s := by
  unfold takeUsage
  dsimp only
  rcases stays with ⟨unissued, unserving⟩ | none_
  · rw [if_neg (by simp [unissued, unserving])]
  · rw [none_, ite_self]

end Withdrawal

/-- Settles O57: a mismatch, an update alone, and the three withdrawals in order. -/
theorem usageUpdatesOrWithdraws : Obligations.UsageUpdatesOrWithdraws := by
  intro s m report released defined lim minutes length radius place at_
  refine ⟨fun away => ?_, fun r at__ record => ?_⟩
  · rw [exec_usage released defined, reportUsage_mismatched (s := heard .hall s) away, limitedReport_eq]
    rfl
  · intro used t broken life wear withdrawn
    have takes : exec (.usage m report) s
        = .next (grants (takeUsage report.assembly place (limitedReport report) r (heard .hall s))) := by
      rw [exec_usage released defined, reportUsage_matched (s := heard .hall s) at__ record]
    have used_ : usedRecord (limitedReport report) r = used := by
      rw [limitedReport_eq]
      rfl
    have withdraws : ∀ reason, r.state = .issued ∨ r.state = .inService →
        withdrawalReason t report.broken used = some reason → exec (.usage m report) s = withdrawn reason := by
      intro reason out meets
      rw [takes, takeUsage_withdraws (s := heard .hall s) (u := limitedReport report) out (used_.symm ▸ meets), used_]
      rfl
    have unbroken : ¬broken → report.broken = false := Bool.eq_false_iff.2
    refine ⟨fun stays => ?_, fun out => ⟨fun broken_ => ?_, fun whole spent => ?_, fun whole unspent worn => ?_⟩⟩
    · have updates : (r.state ≠ .issued ∧ r.state ≠ .inService)
          ∨ withdrawalReason (typeAt (heard .hall s) r.type) (limitedReport report).broken
              (usedRecord (limitedReport report) r) = none := by
        rcases stays with gone | ⟨whole, unspent, unworn⟩
        · exact .inl (by simp [gone])
        · refine .inr ?_
          rw [used_]
          exact (congrArg (withdrawalReason t · used) (unbroken whole)).trans (withdrawalReason_none unspent unworn)
      rw [takes, takeUsage_updates updates, used_]
      rfl
    · exact withdraws _ out ((congrArg (withdrawalReason t · used) broken_).trans withdrawalReason_break)
    · exact withdraws _ out ((congrArg (withdrawalReason t · used) (unbroken whole)).trans (withdrawalReason_life spent))
    · exact withdraws _ out
        ((congrArg (withdrawalReason t · used) (unbroken whole)).trans (withdrawalReason_wear unspent worn))

end Sys2Proof.UsageReports

/-! PROOFS. What a taken request makes of its owner's outcome, and the fields that several requests read. -/

namespace Sys2Proof.Writes

open Sys2Proof Sys2Proof.Machine

/-! ## From an owner's outcome to the reply -/

section Outcomes

variable {code rt : Nat} {owner : State → Taken} {s u : State} {status : Status} {body : ReplyBody}

/-- A taken request whose owner replies on a state of its own, with the generation as it stands. -/
theorem openRequest_moves (taken : RequestTaken s) (owns : owner (heard .crib s) = replied (heard .crib u) status body)
    (same : u.generation = s.generation) :
    openRequest code rt owner s = grants (answered (.reply code rt status s.generation body) u) := by
  rw [openRequest_replied code rt owner s _ status body taken owns, ← same]
  rfl

theorem tableRequest_moves (taken : WriteTaken s) (owns : owner (heard .crib s) = replied (heard .crib u) status body)
    (same : u.generation = s.generation) :
    tableRequest code rt owner s = grants (answered (.reply code rt status s.generation body) u) := by
  rw [tableRequest_replied code rt owner s _ status body taken owns, ← same]
  rfl

/-- A taken table-writing request whose owner only replies: the reply alone. -/
theorem tableRequest_answers (taken : WriteTaken s) (owns : owner (heard .crib s) = replied (heard .crib s) status body) :
    tableRequest code rt owner s = grants (answered (.reply code rt status s.generation body) s) :=
  tableRequest_moves taken owns rfl

/-- A taken table-writing request that changed stored content: the generation advances. -/
theorem tableRequest_effects (taken : WriteTaken s) (owns : owner (heard .crib s) = effected (heard .crib u) body)
    (same : u.generation = s.generation) :
    tableRequest code rt owner s
      = grants (answered (.reply code rt .ok ((s.generation + 1) % 65536) body)
          { u with generation := (s.generation + 1) % 65536 }) := by
  rw [tableRequest_effected code rt owner s _ body taken owns, ← same]
  rfl

theorem notify_at_generation (body : NoticeBody) (g : Nat) (s : State) :
    { notify body s with generation := g } = notify body { s with generation := g } := by
  unfold notify
  split <;> rfl

/-- The same where the owner hands a notice on. -/
theorem tableRequest_notifies {notice : NoticeBody} (taken : WriteTaken s)
    (owns : owner (heard .crib s) = effected (notify notice (heard .crib u)) body) (same : u.generation = s.generation) :
    tableRequest code rt owner s
      = grants (answered (.reply code rt .ok ((s.generation + 1) % 65536) body)
          (notify notice { u with generation := (s.generation + 1) % 65536 })) := by
  rw [← Readings.heard_notify] at owns
  rw [tableRequest_effects taken owns ((notify_generation _ _).trans same), notify_at_generation]

end Outcomes

/-! ## Fields -/

theorem yesNo?_code {k : Nat} (low : k ≤ 1) : yesNo? k = some (decide (k = 1)) := by
  match k with
  | 0 | 1 => rfl

theorem yesNo?_above {k : Nat} (above : 1 < k) : yesNo? k = none := by
  match k with
  | _ + 2 => rfl

theorem inLengthRange_iff {v : Int} : inLengthRange v = true ↔ -999999999 ≤ v ∧ v ≤ 999999999 := by
  rw [inLengthRange, Bool.and_eq_true, decide_eq_true_iff, decide_eq_true_iff, Config.lengthLimit]

/-! ## Machines -/

theorem heard_putMachine (m : Nat) (x : MachineDef) (s : State) :
    putMachine m x (heard .crib s) = heard .crib (putMachine m x s) := by
  unfold putMachine
  split <;> rfl

theorem putMachine_self {s : State} {m : Nat} {x : MachineDef} (is : machineAt s m = some x) : putMachine m x s = s := by
  unfold putMachine
  unfold machineAt at is
  split
  next low =>
    rw [if_pos low] at is
    have same : s.machines.setIfInBounds (m - 1) x = s.machines := by
      ext k inBounds
      rw [Vector.getElem_setIfInBounds]
      split
      next here =>
        subst here
        rw [Vector.getElem?_eq_getElem inBounds] at is
        exact (Option.some.inj is).symm
      next => rfl
    rw [same]
  next => rfl

end Sys2Proof.Writes

/-! PROOFS. Machine definitions and the paused field (R121, R122, R147). -/

namespace Sys2Proof.Machines

open Sys2Proof Sys2Proof.Machine Sys2Proof.Writes

/-! ## DEFINE_MACHINE (R121, R122) -/

section Define

variable {s : State} {m : Nat} {x : MachineDef} {b : MachineBody}

/-- A body within the ranges of R121. -/
def BodyLegal (b : MachineBody) : Prop := b.defined ≤ 1 ∧ b.push ≤ 1 ∧ 1 ≤ b.magazine ∧ b.magazine ≤ 240

/-- Undefining the machine leaves an entry of the issue map or a pending switch behind. -/
def EndsInUse (s : State) (m : Nat) (x : MachineDef) (b : MachineBody) : Prop :=
  x.defined = true ∧ decide (b.defined = 1) = false ∧ (occupiedAbove s m 0 = true ∨ x.switch.isSome = true)

/-- Shrinking the magazine leaves an entry of the issue map above it. -/
def ShrinksInUse (s : State) (m : Nat) (x : MachineDef) (b : MachineBody) : Prop :=
  x.defined = true ∧ decide (b.defined = 1) = true ∧ b.magazine < x.magazine ∧ occupiedAbove s m b.magazine = true

/-- The body says what the definition holds. -/
def BodyEqual (x : MachineDef) (b : MachineBody) : Prop :=
  decide (b.defined = 1) = x.defined ∧ b.magazine = x.magazine ∧ decide (b.push = 1) = x.push

/-- The definition that the body leaves. -/
def redefined (x : MachineDef) (b : MachineBody) : MachineDef :=
  { x with
    defined := decide (b.defined = 1), magazine := b.magazine, push := decide (b.push = 1)
    paused := if x.defined = true ∧ decide (b.defined = 1) = false then false else x.paused }

theorem ownDefineMachine_illegal (is : machineAt s m = some x) (illegal : ¬BodyLegal b) :
    ownDefineMachine m b s = replied s .invalidTable .none := by
  unfold ownDefineMachine
  rw [is]
  dsimp only
  by_cases defined : b.defined ≤ 1
  case neg => rw [yesNo?_above (Nat.not_le.1 defined)]
  by_cases push : b.push ≤ 1
  case neg =>
    rw [yesNo?_above (Nat.not_le.1 push)]
    cases yesNo? b.defined <;> rfl
  rw [yesNo?_code defined, yesNo?_code push]
  refine if_pos ?_
  unfold BodyLegal at illegal
  omega

theorem paused_eq (paused was is : Bool) :
    (paused && !(was && !is)) = if was = true ∧ is = false then false else paused := by
  cases was <;> cases is <;> simp

open scoped Classical in
theorem ownDefineMachine_legal (is : machineAt s m = some x) (legal : BodyLegal b) :
    ownDefineMachine m b s
      = if BodyEqual x b then replied s .noChange .none
        else if EndsInUse s m x b then replied s .state .none
        else if ShrinksInUse s m x b then replied s .state .none
        else effected (putMachine m (redefined x b) s)
          (.definition (decide (b.defined = 1)) b.magazine (decide (b.push = 1))) := by
  obtain ⟨defined, push, low, high⟩ := legal
  unfold ownDefineMachine
  rw [is]
  dsimp only
  rw [yesNo?_code defined, yesNo?_code push]
  dsimp only
  rw [if_neg (by omega), paused_eq]
  unfold BodyEqual EndsInUse ShrinksInUse redefined
  congr

theorem occupiedAbove_eq_false {size : Nat} :
    occupiedAbove s m size = false ↔ ∀ e ∈ s.issueMap, e.1 / 256 = m → e.1 % 256 ≤ size := by
  simp [occupiedAbove]

theorem endsInUse_iff :
    ¬EndsInUse s m x b ↔ (x.defined = true → decide (b.defined = 1) = false →
      (∀ e ∈ s.issueMap, e.1 / 256 = m → e.1 % 256 = 0) ∧ x.switch = none) := by
  have clear : occupiedAbove s m 0 = false ↔ ∀ e ∈ s.issueMap, e.1 / 256 = m → e.1 % 256 = 0 := by
    simp only [occupiedAbove_eq_false, Nat.le_zero]
  unfold EndsInUse
  rw [← clear]
  simp only [not_and, not_or, Bool.not_eq_true, Option.isSome_eq_false_iff, Option.isNone_iff_eq_none]

theorem shrinksInUse_iff :
    ¬ShrinksInUse s m x b ↔ (x.defined = true → decide (b.defined = 1) = true → b.magazine < x.magazine →
      ∀ e ∈ s.issueMap, e.1 / 256 = m → e.1 % 256 ≤ b.magazine) := by
  unfold ShrinksInUse
  simp only [not_and, Bool.not_eq_true, occupiedAbove_eq_false]

end Define

/-! ## PAUSE_HANDOFF and RESUME_HANDOFF (R147) -/

section Paused

variable {s : State} {m : Nat} {x : MachineDef}

theorem ownSetPaused_outside (outside : m = 0 ∨ 31 < m) (paused : Bool) (s : State) :
    ownSetPaused m paused s
      = replied s .badIndex (.handoffPaused m (Config.pausedOfNoMachine m) (waitingFor s m)) := by
  rw [ownSetPaused, Reads_.machineAt_outside outside]

theorem ownSetPaused_undefined (is : machineAt s m = some x) (undefined : x.defined = false) (paused : Bool) :
    ownSetPaused m paused s = replied s .state (.handoffPaused m x.paused (waitingFor s m)) := by
  rw [ownSetPaused, is]
  exact if_pos undefined

theorem ownSetPaused_same (is : machineAt s m = some x) (defined : x.defined = true) {paused : Bool}
    (same : x.paused = paused) :
    ownSetPaused m paused s = replied s .noChange (.handoffPaused m paused (waitingFor s m)) := by
  rw [ownSetPaused, is]
  exact (if_neg (by simp [defined])).trans (if_pos same)

theorem ownSetPaused_sets (is : machineAt s m = some x) (defined : x.defined = true) {paused : Bool}
    (other : x.paused ≠ paused) :
    ownSetPaused m paused s
      = replied (putMachine m { x with paused := paused } s) .ok (.handoffPaused m paused (waitingFor s m)) := by
  rw [ownSetPaused, is]
  exact (if_neg (by simp [defined])).trans (if_neg other)

end Paused

/-- Settles O58: the numbers outside the table, then DEFINE_MACHINE's checks in order and the paused field. -/
theorem machineRequestsTakeEffect : Obligations.MachineRequestsTakeEffect := by
  refine ⟨fun s m => ⟨rfl, Option.any_eq_true _ _, fun x => rfl⟩, fun s rt m outside => ⟨fun b taken => ?_, fun taken => ⟨?_, ?_⟩⟩,
    fun s rt m x is => ⟨fun b taken => ?_, fun taken => ?_⟩⟩
  · refine congrArg _ (tableRequest_answers taken ?_)
    rw [ownDefineMachine, Reads_.machineAt_outside outside]
  · exact congrArg _ (Reads_.openRequest_answers taken (ownSetPaused_outside outside true _))
  · exact congrArg _ (Reads_.openRequest_answers taken (ownSetPaused_outside outside false _))
  · intro legal defined push equal endsClear shrinksClear refused
    have equal_ : BodyEqual x b ↔ equal := Iff.rfl
    have ends : ¬EndsInUse (heard .crib s) m x b ↔ endsClear := endsInUse_iff
    have shrinks : ¬ShrinksInUse (heard .crib s) m x b ↔ shrinksClear := shrinksInUse_iff
    refine ⟨fun illegal => ?_, fun sound same => ?_, fun sound other inUse => ?_, fun sound other clear low => ?_⟩
    · exact congrArg _ (tableRequest_answers taken (ownDefineMachine_illegal (s := heard .crib s) is illegal))
    all_goals have owns := ownDefineMachine_legal (s := heard .crib s) is sound
    · rw [if_pos (equal_.2 same)] at owns
      exact congrArg _ (tableRequest_answers taken owns)
    · rw [if_neg (mt equal_.1 other)] at owns
      refine congrArg _ (tableRequest_answers taken (owns.trans ?_))
      by_cases left : EndsInUse (heard .crib s) m x b
      · exact if_pos left
      · exact (if_neg left).trans (if_pos (by_contra fun fits => inUse ⟨ends.1 left, shrinks.1 fits⟩))
    · rw [if_neg (mt equal_.1 other), if_neg (ends.2 clear), if_neg (shrinks.2 low), heard_putMachine] at owns
      exact congrArg _ (tableRequest_effects taken owns (putMachine_generation _ _ _))
  · intro answer
    refine ⟨fun undefined => ⟨?_, ?_⟩, fun defined paused => ⟨?_, ?_⟩, fun defined running => ⟨?_, ?_⟩⟩
    · exact congrArg _ (Reads_.openRequest_answers taken (ownSetPaused_undefined (s := heard .crib s) is undefined true))
    · exact congrArg _ (Reads_.openRequest_answers taken (ownSetPaused_undefined (s := heard .crib s) is undefined false))
    · exact congrArg _ (Reads_.openRequest_answers taken (ownSetPaused_same (s := heard .crib s) is defined paused))
    · have owns := ownSetPaused_sets (s := heard .crib s) (paused := false) is defined (by simp [paused])
      rw [heard_putMachine] at owns
      exact congrArg _ (openRequest_moves taken owns (putMachine_generation _ _ _))
    · have owns := ownSetPaused_sets (s := heard .crib s) (paused := true) is defined (by simp [running])
      rw [heard_putMachine] at owns
      exact congrArg _ (openRequest_moves taken owns (putMachine_generation _ _ _))
    · exact congrArg _ (Reads_.openRequest_answers taken (ownSetPaused_same (s := heard .crib s) is defined running))

end Sys2Proof.Machines

/-! PROOFS. The profile requests (R123, R124, R130 to R133, R135, R136). -/

namespace Sys2Proof.Profiles

open Sys2Proof Sys2Proof.Machine Sys2Proof.Writes Sys2Proof.Slots

/-! ## The first failing slot (R124) -/

section Reasons

variable {y : OutputSlot} {position : Nat}

theorem slotReason_source (unknown : ¬y.source ≤ 9) : slotReason position y = some (.source position) := by
  rw [slotReason, source?_above (Nat.not_le.1 unknown)]

theorem slotReason_width (known : y.source ≤ 9) (narrow : ¬(1 ≤ y.width ∧ y.width ≤ 9)) :
    slotReason position y = some (.width position) := by
  obtain ⟨src, is⟩ := source?_listed known
  rw [slotReason, is]
  exact if_pos (by omega)

theorem slotReason_unit (known : y.source ≤ 9) (wide : 1 ≤ y.width ∧ y.width ≤ 9)
    (unscaled : ¬(y.source ≤ 5 → 1 ≤ y.unit ∧ y.unit ≤ 4)) : slotReason position y = some (.unit position) := by
  obtain ⟨src, is⟩ := source?_listed known
  obtain ⟨-, kind, -⟩ := source?_some is
  rw [slotReason, is]
  refine (if_neg (by omega)).trans (if_pos ⟨kind.2 ?_, ?_⟩) <;> omega

theorem slotsReason_first {reason : ProfileReason} {before : List OutputSlot} (after : List OutputSlot)
    (sound : ∀ z ∈ before, SlotValid z) (fails : slotReason (position + before.length) y = some reason) :
    slotsReason position (before ++ y :: after) = some reason := by
  induction before generalizing position with
  | nil => rw [List.nil_append, slotsReason, show slotReason position y = some reason from fails, Option.some_or]
  | cons z rest ih =>
    obtain ⟨first, others⟩ := List.forall_mem_cons.1 sound
    have later : slotReason (position + 1 + rest.length) y = some reason := by
      rw [← fails, List.length_cons]
      congr 1
      omega
    rw [List.cons_append, slotsReason, slotReason_eq_none.2 first, Option.none_or, ih others later]

theorem profileReason_slots {p : Profile} (some_ : p.slots ≠ []) : profileReason p = slotsReason 1 p.slots :=
  if_neg (by simpa using some_)

theorem profileReason_first {p : Profile} {reason : ProfileReason} {before after : List OutputSlot}
    (list : p.slots = before ++ y :: after) (sound : ∀ z ∈ before, SlotValid z)
    (fails : slotReason (before.length + 1) y = some reason) : profileReason p = some reason := by
  rw [profileReason_slots (by simp [list]), list]
  exact slotsReason_first after sound (by rwa [Nat.add_comm])

end Reasons

theorem profileValid_of_none {p : Profile} : profileValid p = true ↔ profileReason p = none := Option.isNone_iff_eq_none

/-! ## The stored form (R123, R130) -/

/-- A slot body within the storage ranges. -/
def SlotStorable (y : SlotBody) : Prop :=
  y.source ≤ 15 ∧ y.unit ≤ 7 ∧ y.width ≤ 15 ∧ y.negate ≤ 1 ∧ y.blankZero ≤ 1

/-- The slot that a storable body stores. -/
def slotOf (y : SlotBody) : OutputSlot := ⟨y.source, y.unit, y.width, decide (y.negate = 1), decide (y.blankZero = 1)⟩

theorem storedSlot?_some {y : SlotBody} (storable : SlotStorable y) : storedSlot? y = some (slotOf y) := by
  obtain ⟨source, unit, width, negate, blank⟩ := storable
  rw [storedSlot?, yesNo?_code negate, yesNo?_code blank]
  exact if_pos ⟨source, unit, width⟩

theorem storedSlot?_none {y : SlotBody} (outside : ¬SlotStorable y) : storedSlot? y = none := by
  rw [storedSlot?]
  by_cases negate : y.negate ≤ 1
  case neg => rw [yesNo?_above (Nat.not_le.1 negate)]
  by_cases blank : y.blankZero ≤ 1
  case neg =>
    rw [yesNo?_above (Nat.not_le.1 blank)]
    cases yesNo? y.negate <;> rfl
  rw [yesNo?_code negate, yesNo?_code blank]
  exact if_neg fun ⟨source, unit, width⟩ => outside ⟨source, unit, width, negate, blank⟩

theorem storedSlots?_some {slots : List SlotBody} (storable : ∀ y ∈ slots, SlotStorable y) :
    storedSlots? slots = some (slots.map slotOf) := by
  induction slots with
  | nil => rfl
  | cons y rest ih =>
    obtain ⟨first, others⟩ := List.forall_mem_cons.1 storable
    rw [storedSlots?, storedSlot?_some first, ih others]
    rfl

theorem storedSlots?_none {slots : List SlotBody} (outside : ¬∀ y ∈ slots, SlotStorable y) :
    storedSlots? slots = none := by
  induction slots with
  | nil => exact absurd (fun _ mem => nomatch mem) outside
  | cons y rest ih =>
    rw [storedSlots?]
    by_cases first : SlotStorable y
    · rw [storedSlot?_some first, ih fun others => outside (List.forall_mem_cons.2 ⟨first, others⟩)]
    · rw [storedSlot?_none first]

/-- A profile body within the storage ranges, its list of its count. -/
def ProfileStorable (body : ProfileBody) : Prop :=
  body.count ≤ 12 ∧ body.slots.length = body.count ∧ -999999999 ≤ body.offset ∧ body.offset ≤ 999999999
    ∧ ∀ y ∈ body.slots, SlotStorable y

/-- The bank that a storable body stores. -/
def profileOfBody (body : ProfileBody) : Profile := ⟨body.slots.map slotOf, body.offset⟩

theorem storedProfile?_some {body : ProfileBody} (storable : ProfileStorable body) :
    storedProfile? body = some (profileOfBody body) := by
  obtain ⟨few, count, low, high, slots⟩ := storable
  rw [storedProfile?, if_pos ⟨few, count, inLengthRange_iff.2 ⟨low, high⟩⟩, storedSlots?_some slots]
  rfl

theorem storedProfile?_none {body : ProfileBody} (outside : ¬ProfileStorable body) : storedProfile? body = none := by
  rw [storedProfile?]
  split
  next is =>
    obtain ⟨few, count, range⟩ := is
    obtain ⟨low, high⟩ := inLengthRange_iff.1 range
    rw [storedSlots?_none fun slots => outside ⟨few, count, low, high, slots⟩]
    rfl
  next => rfl

/-! ## WRITE_PROFILE (R130, R131) -/

section Write

variable {s : State} {m : Nat} {x : MachineDef} {b : Bank} {body : ProfileBody}

theorem ownWriteProfile_outside {code : Nat} (outside : m = 0 ∨ 31 < m ∨ 1 < code) (body : ProfileBody) (s : State) :
    ownWriteProfile m code body s = replied s .badIndex .none := by
  unfold ownWriteProfile
  rcases or_assoc.2 outside with unlisted | above
  · rw [Reads_.machineAt_outside unlisted]
  · rw [Reads_.bank?_above above]
    cases machineAt s m <;> rfl

theorem ownWriteProfile_unstorable (is : machineAt s m = some x) (outside : ¬ProfileStorable body) :
    ownWriteProfile m (if b = .bankA then 0 else 1) body s = replied s .invalidTable .none := by
  rw [ownWriteProfile, is, Reads_.bank?_code]
  dsimp only
  rw [storedProfile?_none outside]

/-- The bank is the valid active one. -/
def InUse (x : MachineDef) (b : Bank) : Prop := x.active = b ∧ profileReason (profileOf x b) = none

/-- The bank is the target of a pending switch. -/
def Targeted (x : MachineDef) (b : Bank) : Prop := x.active ≠ b ∧ ∃ w, x.switch = some w ∧ w.target = b

theorem targets_iff : x.switch.any (fun w => decide (w.target = b)) = true ↔ ∃ w, x.switch = some w ∧ w.target = b := by
  simp [Option.any_eq_true]

open scoped Classical in
theorem ownWriteProfile_storable (is : machineAt s m = some x) (storable : ProfileStorable body) :
    ownWriteProfile m (if b = .bankA then 0 else 1) body s
      = if InUse x b then replied s .activeBank .none
        else if Targeted x b then replied s .busy .none
        else if profileOfBody body = profileOf x b then replied s .noChange .none
        else effected (putMachine m (withProfile x b (profileOfBody body)) s)
          (.profileWritten (profileReason (profileOfBody body)) (x.active = b)) := by
  rw [ownWriteProfile, is, Reads_.bank?_code]
  dsimp only
  rw [storedProfile?_some storable]
  simp only [InUse, Targeted, profileValid_of_none, targets_iff]
  congr

end Write

/-! ## SWITCH_PROFILE (R132, R133) -/

section Switch

variable {s : State} {m : Nat} {x : MachineDef} {b : Bank}

theorem ownSwitchProfile_outside {code : Nat} (outside : m = 0 ∨ 31 < m ∨ 1 < code) (s : State) :
    ownSwitchProfile m code s = replied s .badIndex .none := by
  unfold ownSwitchProfile
  rcases or_assoc.2 outside with unlisted | above
  · rw [Reads_.machineAt_outside unlisted]
  · rw [Reads_.bank?_above above]
    cases machineAt s m <;> rfl

/-- The wait list with the pre-switch mark of a machine's entries set or cleared, and a definition stored. -/
theorem putMachine_remarkWaiting (m : Nat) (x : MachineDef) (mark : Bool) (s : State) :
    putMachine m x (remarkWaiting m mark s)
      = { putMachine m x s with
          waitList := s.waitList.map fun e => if e.machine = m then { e with marked := mark } else e } := by
  unfold putMachine
  split <;> rfl

theorem ownSwitchProfile_active_idle (is : machineAt s m = some x) (active : x.active = b) (idle : x.switch = none) :
    ownSwitchProfile m (if b = .bankA then 0 else 1) s = replied s .redundant (.redundant none) := by
  have same : { x with switch := none } = x := by rw [← idle]
  rw [ownSwitchProfile, is, Reads_.bank?_code]
  refine (if_pos active).trans ?_
  rw [same, idle]
  exact congrArg (replied · .redundant (.redundant none)) (putMachine_self is)

theorem ownSwitchProfile_active_pending (is : machineAt s m = some x) (active : x.active = b) {w : ProfileSwitch}
    (pending : x.switch = some w) :
    ownSwitchProfile m (if b = .bankA then 0 else 1) s
      = replied (putMachine m { x with switch := none } (remarkWaiting m false s)) .redundant
          (.redundant (some w.target)) := by
  rw [ownSwitchProfile, is, Reads_.bank?_code]
  refine (if_pos active).trans ?_
  rw [pending]
  rfl

theorem ownSwitchProfile_invalid (is : machineAt s m = some x) (other : x.active ≠ b) {reason : ProfileReason}
    (invalid : profileReason (profileOf x b) = some reason) :
    ownSwitchProfile m (if b = .bankA then 0 else 1) s = replied s .invalidTable (.profileInvalid reason) := by
  rw [ownSwitchProfile, is, Reads_.bank?_code]
  refine (if_neg other).trans ?_
  rw [invalid]

theorem ownSwitchProfile_valid (is : machineAt s m = some x) (other : x.active ≠ b)
    (valid : profileReason (profileOf x b) = none) :
    ownSwitchProfile m (if b = .bankA then 0 else 1) s
      = if x.switch.any (fun w => decide (w.target = b)) then replied s .ok .none
        else if waitingFor s m = 0 then
          effected
            (notify (.profileSwitchDone m b x.active false 0) (putMachine m { x with active := b, switch := none } s))
            (.profileSwitched b)
        else
          effected (putMachine m { x with switch := some ⟨b, waitingFor s m, waitingFor s m⟩ } (remarkWaiting m true s))
            (.profilePending b (waitingFor s m) x.active) := by
  rw [ownSwitchProfile, is, Reads_.bank?_code]
  refine (if_neg other).trans ?_
  rw [valid]

theorem waitingFor_eq_zero : waitingFor s m = 0 ↔ ∀ e ∈ s.waitList, e.machine ≠ m := by
  simp [waitingFor, List.countP_eq_zero]

/-! ## CANCEL_PROFILE_SWITCH (R135) -/

theorem ownCancelProfile_outside (outside : m = 0 ∨ 31 < m) (s : State) :
    ownCancelProfile m s = replied s .badIndex .none := by
  rw [ownCancelProfile, Reads_.machineAt_outside outside]

theorem ownCancelProfile_idle (is : machineAt s m = some x) (idle : x.switch = none) :
    ownCancelProfile m s = replied s .state .none := by
  rw [ownCancelProfile, is]
  dsimp only
  rw [idle]

theorem ownCancelProfile_pending (is : machineAt s m = some x) {w : ProfileSwitch} (pending : x.switch = some w) :
    ownCancelProfile m s
      = effected
          (notify (.profileSwitchCancelled m w.target w.marked)
            (putMachine m { x with switch := none } (remarkWaiting m false s)))
          (.cancelled w.target) := by
  rw [ownCancelProfile, is]
  dsimp only
  rw [pending]

end Switch

/-- Storing a definition and remarking the list on a state whose frame has ended. -/
theorem heard_remarked (m : Nat) (x : MachineDef) (mark : Bool) (s : State) :
    putMachine m x (remarkWaiting m mark (heard .crib s)) = heard .crib (putMachine m x (remarkWaiting m mark s)) :=
  heard_putMachine m x (remarkWaiting m mark s)

/-- Settles O59: the reasons of an invalid profile, the numbers outside the tables, and the three requests' checks in
order. -/
theorem profileRequestsTakeEffect : Obligations.ProfileRequestsTakeEffect := by
  refine ⟨fun p => ?_, fun s rt m code taken => ⟨fun outside => ⟨fun body => ?_, ?_⟩, fun outside => ?_⟩,
    fun s rt m x taken is => ⟨fun b => ?_, fun idle => ?_, fun w pending => ?_⟩⟩
  · refine ⟨fun empty => if_pos (by simp [empty]), fun some_ sound => ?_, fun before after y list sound =>
      ⟨fun unknown => ?_, fun known narrow => ?_, fun known wide unscaled => ?_⟩⟩
    · rw [profileReason_slots some_]
      refine slotsReason_eq_none.2 fun y mem => ?_
      obtain ⟨known, ⟨low, high⟩, scaled⟩ := sound y mem
      exact ⟨known, low, high, scaled⟩
    all_goals
      have valid : ∀ z ∈ before, SlotValid z := fun z mem => by
        obtain ⟨known, ⟨low, high⟩, scaled⟩ := sound z mem
        exact ⟨known, low, high, scaled⟩
    · exact profileReason_first list valid (slotReason_source unknown)
    · exact profileReason_first list valid (slotReason_width known narrow)
    · exact profileReason_first list valid (slotReason_unit known wide unscaled)
  · exact congrArg _ (tableRequest_answers taken (ownWriteProfile_outside outside body _))
  · exact congrArg _ (tableRequest_answers taken (ownSwitchProfile_outside outside _))
  · exact congrArg _ (tableRequest_answers taken (ownCancelProfile_outside outside _))
  · have old := Reads_.profileOf_eq x b
    dsimp only
    rw [← old]
    refine ⟨fun body => ?_, fun reason other invalid => ?_, fun active idle => ?_, fun w active pending => ?_,
      fun w other valid pending target => ?_, fun other valid away empty => ?_, fun other valid away waits => ?_⟩
    · have inUse : InUse x b ↔ x.active = b ∧ profileReason (profileOf x b) = none := Iff.rfl
      have targeted : Targeted x b ↔ x.active ≠ b ∧ ∃ w, x.switch = some w ∧ w.target = b := Iff.rfl
      refine ⟨fun outside => ?_, fun storable used => ?_, fun storable aimed => ?_, fun storable free unaimed same => ?_,
        fun storable free unaimed new => ?_⟩
      · exact congrArg _ (tableRequest_answers taken (ownWriteProfile_unstorable (s := heard .crib s) is outside))
      all_goals have owns := ownWriteProfile_storable (s := heard .crib s) (b := b) is storable
      · rw [if_pos (inUse.2 used)] at owns
        exact congrArg _ (tableRequest_answers taken owns)
      · rw [if_neg (mt inUse.1 fun used => aimed.1 used.1), if_pos (targeted.2 aimed)] at owns
        exact congrArg _ (tableRequest_answers taken owns)
      · have same_ : profileOfBody body = profileOf x b := same
        rw [if_neg (mt inUse.1 free), if_neg (mt targeted.1 unaimed), if_pos same_] at owns
        exact congrArg _ (tableRequest_answers taken owns)
      · have new_ : profileOfBody body ≠ profileOf x b := new
        rw [if_neg (mt inUse.1 free), if_neg (mt targeted.1 unaimed), if_neg new_, heard_putMachine] at owns
        have stored : withProfile x b (profileOfBody body)
            = if b = .bankA then { x with bankA := profileOfBody body } else { x with bankB := profileOfBody body } := by
          cases b <;> rfl
        rw [stored] at owns
        exact congrArg _ (tableRequest_effects taken owns (putMachine_generation _ _ _))
    · exact congrArg _ (tableRequest_answers taken (ownSwitchProfile_invalid (s := heard .crib s) is other invalid))
    · exact congrArg _ (tableRequest_answers taken (ownSwitchProfile_active_idle (s := heard .crib s) is active idle))
    · have owns := ownSwitchProfile_active_pending (s := heard .crib s) is active pending
      rw [heard_remarked, putMachine_remarkWaiting] at owns
      exact congrArg _ (tableRequest_moves taken owns (putMachine_generation _ _ _))
    all_goals have owns := ownSwitchProfile_valid (s := heard .crib s) is other valid
    · rw [if_pos (targets_iff.2 ⟨w, pending, target⟩)] at owns
      exact congrArg _ (tableRequest_answers taken owns)
    all_goals
      have untargeted : ¬x.switch.any (fun w => decide (w.target = b)) = true := fun aimed => by
        obtain ⟨w, pending, target⟩ := targets_iff.1 aimed
        exact away w pending target
      rw [if_neg untargeted] at owns
    · rw [if_pos (waitingFor_eq_zero (s := heard .crib s).2 empty), heard_putMachine] at owns
      exact congrArg _ (tableRequest_notifies taken owns (putMachine_generation _ _ _))
    · have waits_ : ¬waitingFor (heard .crib s) m = 0 := fun zero => by
        obtain ⟨e, mem, here⟩ := waits
        exact waitingFor_eq_zero.1 zero e mem here
      rw [if_neg waits_, heard_remarked, putMachine_remarkWaiting] at owns
      exact congrArg _ (tableRequest_effects taken owns (putMachine_generation _ _ _))
  · exact congrArg _ (tableRequest_answers taken (ownCancelProfile_idle (s := heard .crib s) is idle))
  · have owns := ownCancelProfile_pending (s := heard .crib s) is pending
    rw [heard_remarked, putMachine_remarkWaiting] at owns
    exact congrArg _ (tableRequest_notifies taken owns (putMachine_generation _ _ _))

end Sys2Proof.Profiles

/-! PROOFS. The calibration writes (R45, R54, R58, R60 to R67). -/

namespace Sys2Proof.Calibrations

open Sys2Proof Sys2Proof.Machine Sys2Proof.Writes

/-! ## The first condition that fails (R58) -/

theorem risingBreakpoints_iff {list : List Breakpoint} :
    risingBreakpoints list = true ↔ list.Pairwise fun p q => p.q < q.q := by
  induction list with
  | nil => simp [risingBreakpoints]
  | cons p rest ih =>
    cases rest with
    | nil => simp [risingBreakpoints]
    | cons r rest =>
      rw [risingBreakpoints, Bool.and_eq_true, ih, decide_eq_true_iff, List.pairwise_cons (l := r :: rest),
        List.forall_mem_cons]
      constructor
      · rintro ⟨step, rises⟩
        exact ⟨⟨step, fun q mem => step.trans ((List.pairwise_cons.1 rises).1 q mem)⟩, rises⟩
      · rintro ⟨⟨step, -⟩, rises⟩
        exact ⟨step, rises⟩

section Reasons

variable {b : CalBank}

theorem calReason_count (uncounted : ¬(2 ≤ b.breakpoints.length ∧ b.breakpoints.length ≤ 16)) :
    calReason b = some .breakpointCount := if_pos (by omega)

theorem calReason_order (counted : 2 ≤ b.breakpoints.length ∧ b.breakpoints.length ≤ 16)
    (falls : ¬b.breakpoints.Pairwise fun p q => p.q < q.q) : calReason b = some .breakpointOrder :=
  (if_neg (by omega)).trans (if_pos (Bool.eq_false_iff.2 (mt risingBreakpoints_iff.1 falls)))

/-- With a rising list of its count, the three conditions on the numbers. -/
theorem calReason_listed (counted : 2 ≤ b.breakpoints.length ∧ b.breakpoints.length ≤ 16)
    (rises : b.breakpoints.Pairwise fun p q => p.q < q.q) :
    calReason b = if b.scaleNum = 0 ∨ b.scaleDen = 0 then some .scaleZero
      else if b.refMin = 0 ∨ b.refMax < b.refMin then some .window
      else if b.depth = 2 ∨ b.depth = 4 ∨ b.depth = 8 then none
      else some .settleDepth :=
  (if_neg (by omega)).trans (if_neg (by simp [risingBreakpoints_iff.2 rises]))

end Reasons

theorem calValid_iff {b : CalBank} : calValid b = true ↔ calReason b = none := Option.isNone_iff_eq_none

/-! ## WRITE_CAL (R60, R61) -/

/-- A calibration body within the storage ranges, its list of its count. -/
def CalStorable (body : CalBody) : Prop :=
  body.count ≤ 16 ∧ body.breakpoints.length = body.count
    ∧ (∀ p ∈ body.breakpoints, 0 ≤ p.q ∧ p.q ≤ 1048575 ∧ -20000 ≤ p.g ∧ p.g ≤ 20000)
    ∧ -999999999 ≤ body.zero ∧ body.zero ≤ 999999999 ∧ body.depth ≤ 8

/-- The bank that a storable body stores. -/
def calOfBody (body : CalBody) : CalBank :=
  { breakpoints := body.breakpoints, scaleNum := body.scaleNum, scaleDen := body.scaleDen, zero := body.zero
    alpha := min body.alpha 30, refMin := body.refMin, refMax := body.refMax, depth := body.depth }

theorem calRanges_iff (body : CalBody) :
    (body.count ≤ 16 ∧ body.breakpoints.length = body.count
      ∧ body.breakpoints.all (fun p => 0 ≤ p.q && p.q ≤ 1048575 && -20000 ≤ p.g && p.g ≤ 20000) = true
      ∧ inLengthRange body.zero = true ∧ body.depth ≤ 8) ↔ CalStorable body := by
  simp only [CalStorable, inLengthRange_iff, List.all_eq_true, Bool.and_eq_true, decide_eq_true_eq, and_assoc]

theorem storedCal?_some {body : CalBody} (storable : CalStorable body) : storedCal? body = some (calOfBody body) :=
  if_pos ((calRanges_iff body).2 storable)

theorem storedCal?_none {body : CalBody} (outside : ¬CalStorable body) : storedCal? body = none :=
  if_neg (mt (calRanges_iff body).1 outside)

section Requests

variable {s : State} {h : Fin 4} {b : Bank} {body : CalBody}

theorem ownWriteCal_outside {head code : Nat} (outside : 3 < head ∨ 1 < code) (body : CalBody) (s : State) :
    ownWriteCal head code body s = replied s .badIndex .none := by
  unfold ownWriteCal
  rcases outside with above | above
  · rw [Reads_.headNumber?_above above]
  · rw [Reads_.bank?_above above]
    cases headNumber? head <;> rfl

theorem ownWriteCal_unstorable (outside : ¬CalStorable body) :
    ownWriteCal h (if b = .bankA then 0 else 1) body s = replied s .invalidTable .none := by
  rw [ownWriteCal, Reads_.headNumber?_val, Reads_.bank?_code]
  dsimp only
  rw [storedCal?_none outside]

theorem ownWriteCal_storable (storable : CalStorable body) :
    ownWriteCal h (if b = .bankA then 0 else 1) body s
      = if (headAt s h).active = b ∧ calReason (calBankOf (headAt s h) b) = none then replied s .activeBank .none
        else if (headAt s h).active ≠ b ∧ (headAt s h).pendingCal = some b then replied s .busy .none
        else if calOfBody body = calBankOf (headAt s h) b then replied s .noChange .none
        else effected (putHead h (withWrittenCal (headAt s h) b (calOfBody body)) s)
          (.calWritten h b (calReason (calOfBody body)) ((headAt s h).active = b)
            (withWrittenCal (headAt s h) b (calOfBody body)).status) := by
  rw [ownWriteCal, Reads_.headNumber?_val, Reads_.bank?_code]
  dsimp only
  rw [storedCal?_some storable]
  simp only [calValid_iff]

theorem calibratedState_eq (status : HeadState) :
    calibratedState status = if status = .uncalibrated then .ready else status := by
  cases status <;> simp [calibratedState]

theorem withCalBank_eq (x : Head) (b : Bank) (content : CalBank) :
    withCalBank x b content = if b = .bankA then { x with bankA := content } else { x with bankB := content } := by
  cases b <;> rfl

theorem withWrittenCal_eq (x : Head) (b : Bank) (content : CalBank) :
    withWrittenCal x b content
      = if x.active = b ∧ calReason content = none then
          { (if b = .bankA then { x with bankA := content } else { x with bankB := content }) with
            status := if x.status = .uncalibrated then .ready else x.status }
        else if b = .bankA then { x with bankA := content } else { x with bankB := content } := by
  unfold withWrittenCal
  simp only [calValid_iff, withCalBank_eq, calibratedState_eq]

/-! ## SWITCH_CAL (R62 to R64) -/

theorem ownSwitchCal_outside {head code : Nat} (outside : 3 < head ∨ 1 < code) (s : State) :
    ownSwitchCal head code s = replied s .badIndex .none := by
  unfold ownSwitchCal
  rcases outside with above | above
  · rw [Reads_.headNumber?_above above]
  · rw [Reads_.bank?_above above]
    cases headNumber? head <;> rfl

theorem ownSwitchCal_active (active : (headAt s h).active = b) :
    ownSwitchCal h (if b = .bankA then 0 else 1) s
      = replied (putHead h { headAt s h with pendingCal := none } s) .redundant (.redundant (headAt s h).pendingCal) := by
  rw [ownSwitchCal, Reads_.headNumber?_val, Reads_.bank?_code]
  exact if_pos active

theorem ownSwitchCal_invalid (other : (headAt s h).active ≠ b) {reason : CalReason}
    (invalid : calReason (calBankOf (headAt s h) b) = some reason) :
    ownSwitchCal h (if b = .bankA then 0 else 1) s = replied s .invalidTable (.calInvalid reason) := by
  rw [ownSwitchCal, Reads_.headNumber?_val, Reads_.bank?_code]
  refine (if_neg other).trans ?_
  rw [invalid]

theorem ownSwitchCal_targeted (other : (headAt s h).active ≠ b) (valid : calReason (calBankOf (headAt s h) b) = none)
    (targeted : (headAt s h).pendingCal = some b) :
    ownSwitchCal h (if b = .bankA then 0 else 1) s = replied s .ok .none := by
  rw [ownSwitchCal, Reads_.headNumber?_val, Reads_.bank?_code]
  refine (if_neg other).trans ?_
  rw [valid]
  exact if_pos targeted

theorem ownSwitchCal_free (other : (headAt s h).active ≠ b) (valid : calReason (calBankOf (headAt s h) b) = none)
    (idle : (headAt s h).pendingCal = none) (free : (headAt s h).slot = .idle ∨ (headAt s h).slot = .latched) :
    ownSwitchCal h (if b = .bankA then 0 else 1) s
      = effected
          (notify (.calSwitchDone h b (headAt s h).active none (switchedTo (headAt s h) b).status)
            (putHead h (switchedTo (headAt s h) b) s))
          (.calSwitched b (switchedTo (headAt s h) b).status) := by
  rw [ownSwitchCal, Reads_.headNumber?_val, Reads_.bank?_code]
  refine (if_neg other).trans ?_
  rw [valid]
  refine (if_neg (by simp [idle])).trans ?_
  rcases free with slot | slot
  all_goals rw [slot]

theorem ownSwitchCal_armed (other : (headAt s h).active ≠ b) (valid : calReason (calBankOf (headAt s h) b) = none)
    (idle : (headAt s h).pendingCal = none) {c : Capture} (armed : (headAt s h).slot = .armed c) :
    ownSwitchCal h (if b = .bankA then 0 else 1) s
      = effected (putHead h { headAt s h with pendingCal := some b } s) (.calPending b (headAt s h).active) := by
  rw [ownSwitchCal, Reads_.headNumber?_val, Reads_.bank?_code]
  refine (if_neg other).trans ?_
  rw [valid]
  refine (if_neg (by simp [idle])).trans ?_
  split
  next => rfl
  next is => exact absurd (armed.symm.trans is) Slot.noConfusion
  next is => exact absurd (armed.symm.trans is) Slot.noConfusion

/-! ## CANCEL_CAL_SWITCH and HEAD_RESTORE (R54, R66) -/

theorem ownCancelCal_outside {head : Nat} (above : 3 < head) (s : State) :
    ownCancelCal head s = replied s .badIndex .none := by
  rw [ownCancelCal, Reads_.headNumber?_above above]

theorem ownCancelCal_idle (idle : (headAt s h).pendingCal = none) : ownCancelCal h s = replied s .state .none := by
  rw [ownCancelCal, Reads_.headNumber?_val]
  dsimp only
  rw [idle]

theorem ownCancelCal_pending (pending : (headAt s h).pendingCal = some b) :
    ownCancelCal h s
      = effected (notify (.calSwitchCancelled h b) (putHead h { headAt s h with pendingCal := none } s)) (.cancelled b) := by
  rw [ownCancelCal, Reads_.headNumber?_val]
  dsimp only
  rw [pending]

theorem ownHeadRestore_outside {head : Nat} (above : 3 < head) (s : State) :
    ownHeadRestore head s = replied s .badIndex .none := by
  rw [ownHeadRestore, Reads_.headNumber?_above above]

theorem ownHeadRestore_fault {record : FaultRecord} (fault : (headAt s h).status = .fault record) :
    ownHeadRestore h s = effected (putHead h { headAt s h with status := .ready } s) (.headRestored h .ready) := by
  rw [ownHeadRestore, Reads_.headNumber?_val]
  dsimp only
  rw [fault]

theorem ownHeadRestore_other (other : ∀ record, (headAt s h).status ≠ .fault record) :
    ownHeadRestore h s = replied s .state .none := by
  rw [ownHeadRestore, Reads_.headNumber?_val]
  dsimp only
  split
  next record fault => exact absurd fault (other record)
  all_goals rfl

end Requests

/-- Settles O38: the reasons of an invalid bank, the numbers outside the tables, and the four requests' checks in order. -/
theorem calibrationWritesTakeEffect : Obligations.CalibrationWritesTakeEffect := by
  refine ⟨fun b => ?_, fun s rt head code taken => ⟨fun outside => ⟨fun body => ?_, ?_⟩, fun above => ⟨?_, ?_⟩⟩,
    fun s rt h b taken => ?_⟩
  · refine ⟨calReason_count, calReason_order, fun counted rises zero => ?_, fun counted rises scaled closed => ?_,
      fun counted rises scaled window shallow => ?_, fun counted rises scaled window deep => ?_⟩
    all_goals rw [calReason_listed counted rises]
    · exact if_pos (by omega)
    · exact (if_neg (by omega)).trans (if_pos (by omega))
    · exact (if_neg (by omega)).trans ((if_neg (by omega)).trans (if_neg shallow))
    · exact (if_neg (by omega)).trans ((if_neg (by omega)).trans (if_pos deep))
  · exact congrArg _ (tableRequest_answers taken (ownWriteCal_outside outside body _))
  · exact congrArg _ (tableRequest_answers taken (ownSwitchCal_outside outside _))
  · exact congrArg _ (tableRequest_answers taken (ownCancelCal_outside above _))
  · exact congrArg _ (tableRequest_answers taken (ownHeadRestore_outside above _))
  · have old := Reads_.calBankOf_eq (headAt s h) b
    have risen := calibratedState_eq (headAt s h).status
    dsimp only
    rw [← old, ← risen]
    refine ⟨fun body => ⟨fun outside => ?_, fun storable used => ?_, fun storable aimed => ?_,
        fun storable free unaimed same => ?_, fun storable free unaimed new => ?_⟩,
      fun active => ?_, fun reason other invalid => ?_, fun other valid targeted => ?_,
      fun other valid idle free => ?_, fun c other valid idle armed => ?_, fun pending => ?_, fun idle => ?_,
      fun other => ?_, fun record fault => ?_⟩
    · exact congrArg _ (tableRequest_answers taken (ownWriteCal_unstorable outside))
    · exact congrArg _ (tableRequest_answers taken
        ((ownWriteCal_storable (s := heard .crib s) storable).trans (if_pos used)))
    · exact congrArg _ (tableRequest_answers taken ((ownWriteCal_storable (s := heard .crib s) storable).trans
        ((if_neg fun used => aimed.1 used.1).trans (if_pos aimed))))
    · exact congrArg _ (tableRequest_answers taken ((ownWriteCal_storable (s := heard .crib s) storable).trans
        ((if_neg free).trans ((if_neg unaimed).trans (if_pos same)))))
    · have owns := (ownWriteCal_storable (s := heard .crib s) (h := h) (b := b) storable).trans
        ((if_neg free).trans ((if_neg unaimed).trans (if_neg new)))
      rw [withWrittenCal_eq, ← calibratedState_eq] at owns
      exact congrArg _ (tableRequest_effects (u := putHead h _ s) taken owns rfl)
    · exact congrArg _ (tableRequest_moves (u := putHead h _ s) taken (ownSwitchCal_active (s := heard .crib s) active) rfl)
    · exact congrArg _ (tableRequest_answers taken (ownSwitchCal_invalid (s := heard .crib s) other invalid))
    · exact congrArg _ (tableRequest_answers taken (ownSwitchCal_targeted (s := heard .crib s) other valid targeted))
    · exact congrArg _ (tableRequest_notifies (u := putHead h (switchedTo (headAt s h) b) s) taken
        (ownSwitchCal_free (s := heard .crib s) other valid idle free) rfl)
    · exact congrArg _ (tableRequest_effects (u := putHead h _ s) taken
        (ownSwitchCal_armed (s := heard .crib s) other valid idle armed) rfl)
    · exact congrArg _ (tableRequest_notifies (u := putHead h { headAt s h with pendingCal := none } s) taken
        (ownCancelCal_pending (s := heard .crib s) pending) rfl)
    · exact congrArg _ (tableRequest_answers taken (ownCancelCal_idle (s := heard .crib s) idle))
    · exact congrArg _ (tableRequest_answers taken (ownHeadRestore_other (s := heard .crib s) other))
    · exact congrArg _ (tableRequest_effects (u := putHead h _ s) taken (ownHeadRestore_fault (s := heard .crib s) fault) rfl)

end Sys2Proof.Calibrations

/-! PROOFS. WRITE_TYPE (R25, R30 to R33) and WRITE_HOLDS (R21, R22). -/

namespace Sys2Proof.TypeWrites

open Sys2Proof Sys2Proof.Machine Sys2Proof.Writes

/-! ## The stored type (R25) -/

theorem axes?_code {k : Nat} (low : k ≤ 1) : axes? k = some (if k = 0 then .length else .lengthRadius) := by
  match k with
  | 0 | 1 => rfl

theorem axes?_above {k : Nat} (above : 1 < k) : axes? k = none := by
  match k with
  | _ + 2 => rfl

/-- A type body within the ranges of section 2.1. -/
def TypeStorable (b : TypeBody) : Prop :=
  b.defined ≤ 1 ∧ b.axes ≤ 1
    ∧ (∀ v ∈ [b.nominalL, b.nominalR], -999999999 ≤ v ∧ v ≤ 999999999)
    ∧ (∀ v ∈ [b.lowerL, b.lowerR], -1000000 ≤ v ∧ v ≤ 0)
    ∧ (∀ v ∈ [b.upperL, b.upperR], 0 ≤ v ∧ v ≤ 1000000) ∧ 1 ≤ b.band ∧ b.band ≤ 1000
    ∧ ∀ v ∈ [b.lengthWearLimit, b.radiusWearLimit], 0 ≤ v ∧ v ≤ 999999999

theorem typeStorable_iff {b : TypeBody} : TypeStorable b ↔ b.defined ≤ 1 ∧ b.axes ≤ 1 ∧ typeInRange b = true := by
  simp only [TypeStorable, typeInRange, Bool.and_eq_true, decide_eq_true_eq, inLengthRange_iff, List.forall_mem_cons,
    List.not_mem_nil, false_implies, implies_true, and_true]
  unfold Config.lengthLimit
  omega

/-- The record that a storable body stores beside an in-use count. -/
def typeOfBody (b : TypeBody) (inUse : Nat) : TypeRecord :=
  { defined := decide (b.defined = 1), axes := if b.axes = 0 then .length else .lengthRadius
    nominalL := b.nominalL, lowerL := b.lowerL, upperL := b.upperL
    nominalR := b.nominalR, lowerR := b.lowerR, upperR := b.upperR, band := b.band
    lifeLimit := b.lifeLimit, lengthWearLimit := b.lengthWearLimit
    radiusWearLimit := b.radiusWearLimit, auditThreshold := min b.auditThreshold 32767, inUse := inUse }

theorem storedType?_some {b : TypeBody} (storable : TypeStorable b) (inUse : Nat) :
    storedType? b inUse = some (typeOfBody b inUse) := by
  obtain ⟨defined, axes, range⟩ := typeStorable_iff.1 storable
  rw [storedType?, yesNo?_code defined, axes?_code axes, range]
  rfl

theorem storedType?_none {b : TypeBody} (outside : ¬TypeStorable b) (inUse : Nat) : storedType? b inUse = none := by
  rw [storedType?]
  split
  next defined axes yes known range =>
    refine absurd (typeStorable_iff.2 ⟨?_, ?_, range⟩) outside
    · by_contra above
      rw [yesNo?_above (Nat.not_le.1 above)] at yes
      cases yes
    · by_contra above
      rw [axes?_above (Nat.not_le.1 above)] at known
      cases known
  next => rfl

/-! ## The marks (R31 to R33) -/

theorem isToleranceWrite_iff {old new : TypeRecord} :
    isToleranceWrite old new = true
      ↔ new.axes ≠ old.axes ∨ new.nominalL ≠ old.nominalL ∨ new.lowerL ≠ old.lowerL ∨ new.upperL ≠ old.upperL
        ∨ new.nominalR ≠ old.nominalR ∨ new.lowerR ≠ old.lowerR ∨ new.upperR ≠ old.upperR := by
  simp only [isToleranceWrite, Bool.or_eq_true, decide_eq_true_eq, or_assoc, ne_comm (a := old.axes),
    ne_comm (a := old.nominalL), ne_comm (a := old.lowerL), ne_comm (a := old.upperL), ne_comm (a := old.nominalR),
    ne_comm (a := old.lowerR), ne_comm (a := old.upperR)]

/-- A record that a tolerance write of its type marks (R32). -/
def Judged (n : Nat) (r : Assembly) : Bool :=
  r.type = n && decide (r.state ∈ [.partly, .preset, .rejected, .measuring, .issued, .inService])

theorem toBeMarked_eq (n : Nat) : toBeMarked n = Judged n := by
  funext r
  unfold toBeMarked Judged markable
  cases r.state <;> rfl

/-- The state with the marks of a tolerance write (R32, R33). -/
def markedState (n : Nat) (s : State) : State :=
  { s with
    assemblies := s.assemblies.map fun e => (e.1, if Judged n e.2 then { e.2 with marked := true } else e.2)
    sweep :=
      if 0 < s.sweep.marks + s.assemblies.countP fun e => Judged n e.2 && !e.2.marked then
        { state := .running, cursor := 0
          marks := s.sweep.marks + s.assemblies.countP fun e => Judged n e.2 && !e.2.marked
          stepped := 0, otherwise := 0 }
      else { s.sweep with marks := s.sweep.marks + s.assemblies.countP fun e => Judged n e.2 && !e.2.marked } }

theorem markType_eq (n : Nat) (s : State) : markType n s = markedState n s := by
  simp only [markType, markedState, markRecord, newlyMarked, startSweep, toBeMarked_eq]

/-! ## WRITE_TYPE (R30) -/

section WriteType

variable {s : State} {n : Nat} {body : TypeBody}

theorem ownWriteType_outside (above : 127 < n) (body : TypeBody) (s : State) :
    ownWriteType n body s = replied s .badIndex (.typeNumber n) := if_pos above

theorem ownWriteType_busy (low : n ≤ 127) (busy : s.sweep.state ≠ .idle) (body : TypeBody) :
    ownWriteType n body s = replied s .busy (.typeNumber n) := (if_neg (Nat.not_lt.2 low)).trans (if_pos busy)

theorem ownWriteType_unstorable (low : n ≤ 127) (idle : s.sweep.state = .idle) (outside : ¬TypeStorable body) :
    ownWriteType n body s = replied s .invalidTable (.typeNumber n) := by
  refine (if_neg (Nat.not_lt.2 low)).trans ((if_neg (by simp [idle])).trans ?_)
  dsimp only
  rw [storedType?_none outside]

theorem ownWriteType_storable (low : n ≤ 127) (idle : s.sweep.state = .idle) (storable : TypeStorable body) :
    ownWriteType n body s
      = if typeOfBody body (typeAt s n).inUse = typeAt s n then replied s .noChange (.typeRecord n (typeAt s n))
        else if (typeOfBody body (typeAt s n).inUse).defined = false ∧ 0 < (typeAt s n).inUse then
          replied s .state (.typeNumber n)
        else effected
          (if isToleranceWrite (typeAt s n) (typeOfBody body (typeAt s n).inUse) then
            markType n (putType n (typeOfBody body (typeAt s n).inUse) s)
          else putType n (typeOfBody body (typeAt s n).inUse) s)
          (.typeRecord n (typeOfBody body (typeAt s n).inUse)) := by
  refine (if_neg (Nat.not_lt.2 low)).trans ((if_neg (by simp [idle])).trans ?_)
  dsimp only
  rw [storedType?_some storable]

end WriteType

/-- Settles O39: the checks in order, and the accepted write with and without the marks of a tolerance write. -/
theorem typeWriteMarksAssemblies : Obligations.TypeWriteMarksAssemblies := by
  intro s rt n body taken old refused legal new tolerance judged next marks stores
  have storable : legal ↔ TypeStorable body := Iff.rfl
  have writes : ∀ {u : State}, stores →
      (if isToleranceWrite old new then markType n (putType n new (heard .crib s)) else putType n new (heard .crib s))
        = heard .crib u → u.generation = s.generation →
      exec (.writeType rt n body) s
        = .next (grants (answered (.reply 0x10 rt .ok next (.typeRecord n new)) { u with generation := next })) := by
    intro u ⟨low, idle, sound, other, kept⟩ leaves same
    have undefined : ¬(new.defined = false ∧ 0 < old.inUse) := by
      rintro ⟨un, used⟩
      rcases kept with defined | unused
      · rw [un] at defined
        cases defined
      · omega
    have owns := ((ownWriteType_storable (s := heard .crib s) low idle (storable.1 sound)).trans (if_neg other)).trans
      (if_neg undefined)
    exact congrArg _ (tableRequest_effects taken (owns.trans (congrArg (effected · _) leaves)) same)
  refine ⟨fun above => ?_, fun low busy => ?_, fun low idle illegal => ?_, fun low idle sound same => ?_,
    fun low idle sound other undefined used => ?_, fun stored plain => ?_, fun stored tolerant => ?_⟩
  · exact congrArg _ (tableRequest_answers taken (ownWriteType_outside above body _))
  · exact congrArg _ (tableRequest_answers taken (ownWriteType_busy (s := heard .crib s) low busy body))
  · exact congrArg _ (tableRequest_answers taken
      (ownWriteType_unstorable (s := heard .crib s) low idle (mt storable.2 illegal)))
  · exact congrArg _ (tableRequest_answers taken
      ((ownWriteType_storable (s := heard .crib s) low idle (storable.1 sound)).trans (if_pos same)))
  · exact congrArg _ (tableRequest_answers taken
      ((ownWriteType_storable (s := heard .crib s) low idle (storable.1 sound)).trans
        ((if_neg other).trans (if_pos ⟨undefined, used⟩))))
  · exact writes (u := putType n new s) stored (if_neg (mt isToleranceWrite_iff.1 plain)) rfl
  · exact writes (u := markedState n (putType n new s)) stored
      ((if_pos (isToleranceWrite_iff.2 tolerant)).trans (markType_eq n _)) rfl

/-! ## WRITE_HOLDS (R21, R22) -/

section Holds

variable {s : State} {w : Nat} {b : HoldBody}

/-- A window body within the ranges of R21. -/
def WindowStorable (b : HoldBody) : Prop := b.enabled ≤ 1 ∧ b.complement ≤ 1 ∧ b.base ≤ 1023 ∧ b.exponent ≤ 10

/-- The window that a storable body stores, its base aligned down. -/
def windowOfBody (b : HoldBody) : HoldWindow :=
  ⟨b.enabled = 1, b.base - b.base % 2 ^ b.exponent, b.exponent, b.complement = 1⟩

theorem storedWindow?_some (storable : WindowStorable b) : storedWindow? b = some (windowOfBody b) := by
  obtain ⟨enabled, complement, base, exponent⟩ := storable
  rw [storedWindow?, yesNo?_code enabled, yesNo?_code complement]
  exact if_pos ⟨base, exponent⟩

theorem storedWindow?_none (outside : ¬WindowStorable b) : storedWindow? b = none := by
  rw [storedWindow?]
  by_cases enabled : b.enabled ≤ 1
  case neg => rw [yesNo?_above (Nat.not_le.1 enabled)]
  by_cases complement : b.complement ≤ 1
  case neg =>
    rw [yesNo?_above (Nat.not_le.1 complement)]
    cases yesNo? b.enabled <;> rfl
  rw [yesNo?_code enabled, yesNo?_code complement]
  exact if_neg fun ⟨base, exponent⟩ => outside ⟨enabled, complement, base, exponent⟩

theorem ownWriteHolds_outside (above : 3 < w) (b : HoldBody) (s : State) :
    ownWriteHolds w b s = replied s .badIndex .none := by
  rw [ownWriteHolds, Vector.getElem?_eq_none (by omega)]

theorem ownWriteHolds_unstorable (low : w ≤ 3) (outside : ¬WindowStorable b) :
    ownWriteHolds w b s = replied s .invalidTable .none := by
  rw [ownWriteHolds, Vector.getElem?_eq_getElem (by omega)]
  dsimp only
  rw [storedWindow?_none outside]

theorem ownWriteHolds_same (storable : WindowStorable b) (same : s.holds[w]? = some (windowOfBody b)) :
    ownWriteHolds w b s = replied s .noChange (.windows s.holds.toList) := by
  rw [ownWriteHolds, same]
  dsimp only
  rw [storedWindow?_some storable]
  exact if_pos rfl

theorem ownWriteHolds_stores (low : w ≤ 3) (storable : WindowStorable b) (other : s.holds[w]? ≠ some (windowOfBody b)) :
    ownWriteHolds w b s
      = effected { s with holds := s.holds.setIfInBounds w (windowOfBody b) }
          (.windows (s.holds.setIfInBounds w (windowOfBody b)).toList) := by
  have at_ : s.holds[w]? = some s.holds[w] := Vector.getElem?_eq_getElem (by omega)
  rw [at_] at other
  rw [ownWriteHolds, at_]
  dsimp only
  rw [storedWindow?_some storable]
  exact if_neg fun same => other (congrArg some same.symm)

end Holds

theorem covers_iff {w : HoldWindow} {n : Nat} (low : n < 1024) :
    covers w n = true ↔ w.enabled = true
      ∧ (if w.complement then n < w.base ∨ w.base + 2 ^ w.exponent ≤ n
         else w.base ≤ n ∧ n < w.base + 2 ^ w.exponent) := by
  unfold covers
  rw [decide_eq_true low, Bool.and_true, Bool.and_eq_true]
  refine and_congr_right fun _ => ?_
  cases w.complement with
  | true =>
    simp only [bne_iff_ne, ne_eq, Bool.not_eq_true, Bool.and_eq_false_iff, decide_eq_false_iff_not, if_true]
    omega
  | false => simp

/-- Settles O44: the refusals in order, the aligned window, and what a window covers. -/
theorem holdWindowsAreStored : Obligations.HoldWindowsAreStored := by
  refine ⟨fun s rt w b taken fails => ?_, fun s rt w b taken => ⟨fun above => ?_, fun low illegal => ?_,
    fun legal same => ?_, fun low legal other => ?_⟩, fun s n => List.any_eq_true, fun w n => covers_iff⟩
  · exact congrArg _ (ProtectionCheck.tableRequest_locked 0x50 rt _ taken fails)
  · exact congrArg _ (tableRequest_answers taken (ownWriteHolds_outside above b _))
  · exact congrArg _ (tableRequest_answers taken (ownWriteHolds_unstorable low illegal))
  · exact congrArg _ (tableRequest_answers taken (ownWriteHolds_same (s := heard .crib s) legal same))
  · exact congrArg _ (tableRequest_effects (u := { s with holds := s.holds.setIfInBounds w (windowOfBody b) }) taken
      (ownWriteHolds_stores (s := heard .crib s) low legal other) rfl)

end Sys2Proof.TypeWrites

/-! PROOFS. CREATE and DELETE, with the checks that every request naming an assembly passes first (R12, R13, R19). -/

namespace Sys2Proof.Assemblies_

open Sys2Proof Sys2Proof.Machine Sys2Proof.Transitions Sys2Proof.Writes

/-! ## The common checks (R12) -/

section OnAssembly

variable {s : State} {n : Nat} {owner : State → Taken}

theorem onAssembly_above (above : 1023 < n) : onAssembly n owner s = replied s .badIndex (.assembly n) := if_pos above

theorem onAssembly_held (low : n ≤ 1023) (held : isHeld s n = true) :
    onAssembly n owner s = replied { s with protectionError := true } .protected_ (.assembly n) :=
  (if_neg (Nat.not_lt.2 low)).trans (if_pos held)

theorem onAssembly_free (low : n ≤ 1023) (free : isHeld s n = false) : onAssembly n owner s = owner s :=
  (if_neg (Nat.not_lt.2 low)).trans (if_neg (by simp [free]))

end OnAssembly

/-- The requests that name an assembly, each with its code (R12). -/
def NamesAssembly (i : Instr) (code rt n : Nat) : Prop :=
  ((∃ type tag, i = .create rt n type tag) ∧ code = 0x40) ∨ ((∃ b, i = .restore rt n b) ∧ code = 0x41)
    ∨ ((∃ type, i = .changeType rt n type) ∧ code = 0x42) ∨ ((∃ tag, i = .bindTag rt n tag) ∧ code = 0x42)
    ∨ (i = .unbindTag rt n ∧ code = 0x42) ∨ (i = .rebuild rt n ∧ code = 0x42) ∨ (i = .delete rt n ∧ code = 0x43)

theorem exec_namesAssembly {i : Instr} {code rt n : Nat} (is : NamesAssembly i code rt n) :
    ∃ owner, ∀ s, exec i s = .next (tableRequest code rt (onAssembly n owner) s) := by
  rcases is with ⟨⟨_, _, rfl⟩, rfl⟩ | ⟨⟨_, rfl⟩, rfl⟩ | ⟨⟨_, rfl⟩, rfl⟩ | ⟨⟨_, rfl⟩, rfl⟩ | ⟨rfl, rfl⟩ | ⟨rfl, rfl⟩ | ⟨rfl, rfl⟩
  all_goals exact ⟨_, fun _ => rfl⟩

theorem inCrib_eq_false {a : AsmState} : inCrib a = false ↔ a ∈ [.measuring, .issued, .inService, .withdrawn] := by
  cases a <;> decide

theorem inCrib_iff {a : AsmState} : inCrib a = true ↔ a ∉ [.measuring, .issued, .inService, .withdrawn] := by
  rw [← inCrib_eq_false, Bool.not_eq_false]

theorem typeUsable_iff {s : State} {k : Nat} : typeUsable s k = true ↔ k ≤ 127 ∧ (typeAt s k).defined = true := by
  rw [Counted.typeUsable_iff, Nat.lt_succ_iff]

/-! ## What a record's tag, type and mark count for -/

theorem bindTo_eq (n : Nat) (tag : Option Tag) (s : State) :
    bindTo n tag s = { s with tagMap := tag.elim s.tagMap fun x => tableSet s.tagMap x.toNat n } := by
  cases tag <;> rfl

theorem unbindFrom_eq (tag : Option Tag) (s : State) :
    unbindFrom tag s = { s with tagMap := tag.elim s.tagMap fun x => tableErase s.tagMap x.toNat } := by
  cases tag <;> rfl

theorem dropRecord_eq (r : Assembly) (s : State) :
    dropRecord (some r) s
      = { s with
          tagMap := r.tag.elim s.tagMap fun x => tableErase s.tagMap x.toNat
          types := (countOut r.type s).types
          sweep := if r.marked then { s.sweep with marks := s.sweep.marks - 1, otherwise := s.sweep.otherwise + 1 }
            else s.sweep } := by
  rw [dropRecord_some, unbindFrom_eq]
  rfl

/-! ## CREATE (R13) -/

section Create

variable {s : State} {n t : Nat} {tag : Option Tag}

theorem ownCreate_occupied (low : n ≤ 1023) (free : isHeld s n = false) (occupied : recordAt s n ≠ none) :
    ownCreate n t tag s = replied s .state (.assembly n) :=
  (onAssembly_free low free).trans (if_pos (Option.isSome_iff_ne_none.2 occupied))

/-- The checks of an empty slot. -/
theorem ownCreate_empty (low : n ≤ 1023) (free : isHeld s n = false) (empty : recordAt s n = none) :
    ownCreate n t tag s
      = if typeUsable s t = false then replied s .badIndex (.assembly n)
        else if tag.any (fun x => (tableGet s.tagMap x.toNat).isSome) then replied s .tagInUse (.assembly n)
        else effected (countIn t (bindTo n tag (putAssembly n (createdRecord t tag) s))) (.assemblyState n .built) :=
  (onAssembly_free low free).trans (if_neg (by simp [empty]))

theorem tagBound_iff :
    tag.any (fun x => (tableGet s.tagMap x.toNat).isSome) = true ↔ ∃ x, tag = some x ∧ tableGet s.tagMap x.toNat ≠ none := by
  simp [Option.any_eq_true, Option.isSome_iff_ne_none]

/-- The state that CREATE leaves. -/
def createdState (n t : Nat) (tag : Option Tag) (s : State) : State :=
  { s with
    assemblies := tableSet s.assemblies n (createdRecord t tag)
    tagMap := tag.elim s.tagMap fun x => tableSet s.tagMap x.toNat n
    types := s.types.setIfInBounds t { typeAt s t with inUse := (typeAt s t).inUse + 1 } }

theorem created_eq :
    countIn t (bindTo n tag (putAssembly n (createdRecord t tag) s)) = createdState n t tag s := by
  rw [bindTo_eq]
  rfl

end Create

/-! ## DELETE (R19) -/

section Delete

variable {s : State} {n : Nat}

theorem ownDelete_refused (low : n ≤ 1023) (free : isHeld s n = false)
    (away : ∀ r, recordAt s n = some r → r.state ∈ [.measuring, .issued, .inService, .withdrawn]) :
    ownDelete n s = replied s .state (.assembly n) := by
  refine (onAssembly_free low free).trans ?_
  match record : recordAt s n with
  | none => rfl
  | some r => exact if_pos (inCrib_eq_false.2 (away r record))

theorem ownDelete_deletes {r : Assembly} (low : n ≤ 1023) (free : isHeld s n = false) (record : recordAt s n = some r)
    (home : r.state ∉ [.measuring, .issued, .inService, .withdrawn]) :
    ownDelete n s
      = effected { dropRecord (some r) s with assemblies := tableErase (dropRecord (some r) s).assemblies n }
          (.assembly n) := by
  refine (onAssembly_free low free).trans ?_
  dsimp only
  rw [record]
  exact if_neg (by simp [inCrib_iff.2 home])

/-- The state that DELETE leaves. -/
def deletedState (n : Nat) (r : Assembly) (s : State) : State :=
  { s with
    assemblies := tableErase s.assemblies n
    tagMap := r.tag.elim s.tagMap fun x => tableErase s.tagMap x.toNat
    types := (countOut r.type s).types
    sweep := if r.marked then { s.sweep with marks := s.sweep.marks - 1, otherwise := s.sweep.otherwise + 1 }
      else s.sweep }

theorem deleted_eq {r : Assembly} :
    { dropRecord (some r) s with assemblies := tableErase (dropRecord (some r) s).assemblies n } = deletedState n r s := by
  rw [dropRecord_eq]
  rfl

end Delete

/-- Settles O41: the common checks, the table laws, and CREATE and DELETE check by check. -/
theorem createAndDeleteTakeEffect : Obligations.CreateAndDeleteTakeEffect := by
  refine ⟨fun s i code rt n taken is => ⟨fun above => ?_, fun low held => ?_⟩,
    fun s n m r => ⟨tableGet_tableSet _ _ _ _, tableGet_tableErase _ _ _⟩,
    fun table k m v => ⟨tableGet_tableSet _ _ _ _, tableGet_tableErase _ _ _⟩, fun s rt n taken low free => ?_⟩
  · obtain ⟨owner, runs⟩ := exec_namesAssembly is
    rw [runs]
    exact congrArg _ (tableRequest_answers taken (onAssembly_above above))
  · obtain ⟨owner, runs⟩ := exec_namesAssembly is
    rw [runs]
    exact congrArg _ (tableRequest_moves (u := { s with protectionError := true }) taken
      (onAssembly_held (s := heard .crib s) low held) rfl)
  · have unusable : ∀ {t}, ¬(t ≤ 127 ∧ (typeAt s t).defined = true) → typeUsable (heard .crib s) t = false :=
      fun un => Bool.eq_false_iff.2 (mt typeUsable_iff.1 un)
    have usable : ∀ {t}, t ≤ 127 → (typeAt s t).defined = true → ¬typeUsable (heard .crib s) t = false :=
      fun small defined => Bool.eq_false_iff.not.2 (not_not.2 (typeUsable_iff.2 ⟨small, defined⟩))
    refine ⟨fun t tag => ⟨fun occupied => ?_, fun empty un => ?_, fun empty small defined bound => ?_⟩, fun away => ?_,
      fun t tag empty small defined unbound => ?_, fun r record home => ?_⟩
    · exact congrArg _ (tableRequest_answers taken (ownCreate_occupied (s := heard .crib s) low free occupied))
    · exact congrArg _ (tableRequest_answers taken
        ((ownCreate_empty (s := heard .crib s) low free empty).trans (if_pos (unusable un))))
    · exact congrArg _ (tableRequest_answers taken ((ownCreate_empty (s := heard .crib s) low free empty).trans
        ((if_neg (usable small defined)).trans (if_pos (tagBound_iff.2 bound)))))
    · exact congrArg _ (tableRequest_answers taken (ownDelete_refused (s := heard .crib s) low free away))
    · have owns := (ownCreate_empty (s := heard .crib s) (tag := tag) low free empty).trans
        ((if_neg (usable small defined)).trans (if_neg (mt tagBound_iff.1 (by
          rintro ⟨x, is, bound⟩
          exact bound (unbound x is)))))
      rw [created_eq] at owns
      exact congrArg _ (tableRequest_effects (u := createdState n t tag s) taken owns rfl)
    · have owns := ownDelete_deletes (s := heard .crib s) low free record home
      rw [deleted_eq] at owns
      exact congrArg _ (tableRequest_effects (u := deletedState n r s) taken owns rfl)

end Sys2Proof.Assemblies_

/-! PROOFS. The four edits of a record (R16 to R18, R37). -/

namespace Sys2Proof.Edits

open Sys2Proof Sys2Proof.Machine Sys2Proof.Transitions Sys2Proof.Writes Sys2Proof.Assemblies_

/-! ## The review before the action (R37) -/

section Review

variable {s : State} {n : Nat} {old r : Assembly}

theorem heard_evaluate (p : Port) (n : Nat) (s : State) : evaluate n (heard p s) = heard p (evaluate n s) := by
  have same : recordAt (heard p s) n = recordAt s n := by cases p <;> rfl
  unfold evaluate
  rw [same]
  cases recordAt s n with
  | none => rfl
  | some r =>
    dsimp only
    split
    all_goals cases p <;> rfl

theorem heard_reviewOnDemand (p : Port) (n : Nat) (s : State) :
    reviewOnDemand n (heard p s) = heard p (reviewOnDemand n s) := by
  have same : recordAt (heard p s) n = recordAt s n := by cases p <;> rfl
  unfold reviewOnDemand
  rw [same, heard_evaluate]
  split
  · cases p <;> rfl
  · rfl

theorem generation_reviewOnDemand (n : Nat) (s : State) : (reviewOnDemand n s).generation = s.generation := by
  rw [reviewOnDemand_frame]

theorem types_reviewOnDemand (n : Nat) (s : State) : (reviewOnDemand n s).types = s.types := by
  rw [reviewOnDemand_frame]

theorem retired_evaluated {t : TypeRecord} : (evaluated t r).state = .retired ↔ r.state = .retired := by
  have never : ∀ start, outcomeOf t r start ≠ .retired := fun start is => by
    have free := Records.outcomeOf_contactable t r start
    rw [is] at free
    cases free
  unfold evaluated
  cases state : r.state <;> simp [never]

/-- What the review leaves of a record in the crib. -/
theorem reviewed_record (record : recordAt s n = some old) (reviewed : recordAt (reviewOnDemand n s) n = some r)
    (home : inCrib old.state = true) :
    r.type = old.type ∧ r.tag = old.tag ∧ inCrib r.state = true ∧ (r.state = .retired ↔ old.state = .retired) := by
  rw [recordAt_reviewOnDemand record] at reviewed
  obtain rfl := Option.some.inj reviewed
  cases old.marked with
  | true =>
    obtain ⟨type, tag, -, -⟩ := evaluated_fixes (typeAt s old.type) old
    exact ⟨type, tag, evaluated_inCrib home, retired_evaluated⟩
  | false => exact ⟨rfl, rfl, home, Iff.rfl⟩

end Review

/-! ## The checks of an edit (R16) -/

section OnEdit

variable {s : State} {n : Nat} {old : Assembly} {check : State → Assembly → Option Status}
  {action : Assembly → State → Taken}

theorem onEdit_away (low : n ≤ 1023) (free : isHeld s n = false)
    (away : ∀ r, recordAt s n = some r → r.state ∈ [.measuring, .issued, .inService, .withdrawn]) :
    onEdit n check action s = replied s .state (.assembly n) := by
  refine (onAssembly_free low free).trans ?_
  match record : recordAt s n with
  | none => rfl
  | some r => exact if_pos (inCrib_eq_false.2 (away r record))

theorem onEdit_refused {status : Status} (low : n ≤ 1023) (free : isHeld s n = false) (record : recordAt s n = some old)
    (home : inCrib old.state = true) (fails : check s old = some status) :
    onEdit n check action s = replied s status (.assembly n) := by
  refine (onAssembly_free low free).trans ?_
  dsimp only
  rw [record]
  refine (if_neg (by simp [home])).trans ?_
  rw [fails]
  rfl

theorem onEdit_acts {r : Assembly} (low : n ≤ 1023) (free : isHeld s n = false) (record : recordAt s n = some old)
    (home : inCrib old.state = true) (passes : check s old = none)
    (reviewed : recordAt (reviewOnDemand n s) n = some r) :
    onEdit n check action s = action r (reviewOnDemand n s) := by
  refine (onAssembly_free low free).trans ?_
  dsimp only
  rw [record]
  refine (if_neg (by simp [home])).trans ?_
  rw [passes]
  dsimp only
  rw [reviewed]
  rfl

end OnEdit

/-! ## The requests' own checks -/

section Checks

variable {s : State} {n : Nat} {tag : Tag} {r : Assembly}

theorem boundElsewhere_iff : boundElsewhere s n tag = true ↔ ∃ k, tableGet s.tagMap tag.toNat = some k ∧ k ≠ n := by
  simp [boundElsewhere, Option.any_eq_true]

/-- CHANGE_TYPE's own check (R16). -/
def changeTypeCheck (t : Nat) (s : State) (_ : Assembly) : Option Status :=
  if typeUsable s t then none else some .badIndex

theorem changeTypeCheck_refuses {t : Nat} (un : ¬(t ≤ 127 ∧ (typeAt s t).defined = true)) (r : Assembly) :
    changeTypeCheck t s r = some .badIndex := if_neg (mt typeUsable_iff.1 un)

theorem changeTypeCheck_passes {t : Nat} (small : t ≤ 127) (defined : (typeAt s t).defined = true) (r : Assembly) :
    changeTypeCheck t s r = none := if_pos (typeUsable_iff.2 ⟨small, defined⟩)

theorem bindTagCheck_inUse (bound : ∃ k, tableGet s.tagMap tag.toNat = some k ∧ k ≠ n) (r : Assembly) :
    bindTagCheck n tag s r = some .tagInUse := if_pos (boundElsewhere_iff.2 bound)

theorem unbound_elsewhere (free : tableGet s.tagMap tag.toNat = none ∨ tableGet s.tagMap tag.toNat = some n) :
    ¬boundElsewhere s n tag = true := by
  rw [boundElsewhere_iff]
  rintro ⟨k, bound, other⟩
  rcases free with none_ | own
  · rw [none_] at bound
    cases bound
  · rw [own] at bound
    exact other (Option.some.inj bound).symm

theorem bindTagCheck_tagged (free : tableGet s.tagMap tag.toNat = none ∨ tableGet s.tagMap tag.toNat = some n)
    (tagged : r.tag ≠ none) (other : r.tag ≠ some tag) : bindTagCheck n tag s r = some .state := by
  refine (if_neg (unbound_elsewhere free)).trans (if_pos ?_)
  obtain ⟨x, is⟩ := Option.ne_none_iff_exists'.1 tagged
  rw [is] at other ⊢
  simpa using other

theorem bindTagCheck_passes (free : tableGet s.tagMap tag.toNat = none ∨ tableGet s.tagMap tag.toNat = some n)
    (own : r.tag = none ∨ r.tag = some tag) : bindTagCheck n tag s r = none := by
  refine (if_neg (unbound_elsewhere free)).trans (if_neg ?_)
  rcases own with is | is
  all_goals simp [is]

end Checks

/-! ## The actions (R16 to R18) -/

section Actions

variable {u : State} {n t : Nat} {r : Assembly}

/-- The record that CHANGE_TYPE leaves of a reviewed one. -/
def retyped (t : Nat) (record : TypeRecord) (r : Assembly) : Assembly :=
  if r.state = .retired then { r with type := t, marked := false }
  else { r with type := t, state := outcomeOf record r r.state, marked := false }

theorem evaluated_retyped (record : TypeRecord) (home : inCrib r.state = true) :
    evaluated record { r with type := t } = retyped t record r := by
  unfold retyped
  split
  next retired => exact Sweeps.evaluated_resting (r := { r with type := t }) (.inr retired)
  next other =>
    have free : contactable r.state = true := by
      revert home other
      cases r.state <;> simp [inCrib, contactable]
    exact Sweeps.evaluated_contactable (r := { r with type := t }) free

theorem retyped_state (record : TypeRecord) (r : Assembly) :
    (retyped t record r).state = if r.state = .retired then r.state else outcomeOf record r r.state := by
  unfold retyped
  split <;> rfl

/-- The state that CHANGE_TYPE leaves: the record, and the in-use counts of both types. -/
def retypedState (n t k : Nat) (record : TypeRecord) (r : Assembly) (u : State) : State :=
  { u with
    assemblies := tableSet u.assemblies n (retyped t record r)
    types := (countIn t (countOut k u)).types }

theorem changeTypeAction_moves (other : r.type ≠ t) (home : inCrib r.state = true) :
    changeTypeAction n t r u
      = effected (retypedState n t r.type (typeAt u t) r u)
          (.assemblyState n (retyped t (typeAt u t) r).state) := by
  rw [changeTypeAction, if_neg other]
  dsimp only
  rw [evaluated_retyped _ home]
  rfl

theorem counted_types {s : State} (same : u.types = s.types) (t k : Nat) :
    (countIn t (countOut k u)).types = (countIn t (countOut k s)).types := by
  simp [countIn, countOut, typeAt, same]

end Actions

/-- The state with one record stored and the tag map replaced. -/
def taggedState (n : Nat) (r : Assembly) (tags : Table Nat) (u : State) : State :=
  { u with assemblies := tableSet u.assemblies n r, tagMap := tags }

/-- Settles O43: the review, the in-use counts, the refusals in order, and each edit's effect after the review. -/
theorem editsTakeEffect : Obligations.EditsTakeEffect := by
  refine ⟨fun s n => ⟨fun unmarked => ?_, ?_⟩, fun s t m => ⟨rfl, rfl, fun r low => ?_⟩,
    fun s rt n taken low free => ⟨fun away => ⟨fun t => ?_, fun tag => ?_, ?_, ?_⟩,
      fun r record home => ⟨fun t un => ?_, fun tag bound => ?_, fun tag unbound tagged other => ?_, fun other => ?_⟩⟩,
    fun s rt n old r taken low free record home => ?_⟩
  · refine reviewOnDemand_unmarked fun r record => Bool.eq_false_iff.2 fun marked => unmarked ⟨r, record, marked⟩
  · rintro ⟨r, record, marked⟩
    rw [reviewOnDemand_marked record marked, clearedOtherwise, evaluate_frame]
  · refine (typeAt_putType s t m r).trans ?_
    simp [Nat.lt_succ_of_le low]
  · exact congrArg _ (tableRequest_answers taken (onEdit_away (s := heard .crib s) low free away))
  · exact congrArg _ (tableRequest_answers taken (onEdit_away (s := heard .crib s) low free away))
  · exact congrArg _ (tableRequest_answers taken (onEdit_away (s := heard .crib s) low free away))
  · exact congrArg _ (tableRequest_answers taken (onEdit_away (s := heard .crib s) low free away))
  · exact congrArg _ (tableRequest_answers taken (onEdit_refused (s := heard .crib s) low free record
      (inCrib_iff.2 home) (changeTypeCheck_refuses (s := heard .crib s) un r)))
  · exact congrArg _ (tableRequest_answers taken (onEdit_refused (s := heard .crib s) low free record
      (inCrib_iff.2 home) (bindTagCheck_inUse (s := heard .crib s) bound r)))
  · exact congrArg _ (tableRequest_answers taken (onEdit_refused (s := heard .crib s) low free record
      (inCrib_iff.2 home) (bindTagCheck_tagged (s := heard .crib s) unbound tagged other)))
  · exact congrArg _ (tableRequest_answers taken (onEdit_refused (s := heard .crib s) low free record
      (inCrib_iff.2 home) (if_neg other)))
  · intro next u reviewed unchanged
    have crib := inCrib_iff.2 home
    obtain ⟨type_, tag_, home_, retired_⟩ := reviewed_record record reviewed crib
    have review : reviewOnDemand n (heard .crib s) = heard .crib u := heard_reviewOnDemand .crib n s
    have acts : ∀ {check : State → Assembly → Option Status} {action : Assembly → State → Taken},
        check (heard .crib s) old = none → onEdit n check action (heard .crib s) = action r (heard .crib u) := by
      intro check action passes
      rw [← review]
      refine onEdit_acts (s := heard .crib s) low free record crib passes ?_
      rw [review]
      exact reviewed
    have generation : u.generation = s.generation := generation_reviewOnDemand n s
    have tags : u.tagMap = s.tagMap := tagMap_reviewOnDemand n s
    refine ⟨fun t small defined other => ?_, fun small defined => ?_, fun tag untagged unbound => ?_,
      fun tag tagged bound => ?_, fun tag tagged => ?_, fun untagged => ?_, fun retired => ?_⟩
    · have owns := (acts (action := changeTypeAction n t) (changeTypeCheck_passes (s := heard .crib s) small defined old)).trans
        (changeTypeAction_moves (u := heard .crib u) (type_ ▸ other) home_)
      have judged : typeAt (heard .crib u) t = typeAt s t := congrFun (typeAt_reviewOnDemand n s) t
      rw [judged] at owns
      refine congrArg _ ((tableRequest_effects (u := retypedState n t r.type (typeAt s t) r u) taken owns generation).trans ?_)
      rw [retypedState, type_, counted_types (types_reviewOnDemand n s)]
      rfl
    · have owns := (acts (action := changeTypeAction n old.type)
        (changeTypeCheck_passes (s := heard .crib s) small defined old)).trans (if_pos type_)
      exact congrArg _ (tableRequest_moves taken owns generation)
    · have own : r.tag ≠ some tag := by rw [tag_, untagged]; simp
      have owns := (acts (check := bindTagCheck n tag) (action := bindTagAction n tag)
        (bindTagCheck_passes (s := heard .crib s) (.inl unbound) (.inl untagged))).trans (if_neg own)
      refine congrArg _ ((tableRequest_effects
        (u := taggedState n { r with tag := some tag } (tableSet u.tagMap tag.toNat n) u) taken owns generation).trans ?_)
      rw [tags]
      rfl
    · have owns := (acts (check := bindTagCheck n tag) (action := bindTagAction n tag)
        (bindTagCheck_passes (s := heard .crib s) (.inr bound) (.inr tagged))).trans (if_pos (tag_.trans tagged))
      exact congrArg _ (tableRequest_moves taken owns generation)
    · have owns := (acts (check := fun _ _ => none) (action := unbindTagAction n) rfl).trans
        (if_neg (by rw [tag_, tagged]; simp))
      rw [tag_, tagged] at owns
      refine congrArg _ ((tableRequest_effects
        (u := taggedState n { r with tag := none } (tableErase u.tagMap tag.toNat) u) taken owns generation).trans ?_)
      rw [tags]
      rfl
    · have owns := (acts (check := fun _ _ => none) (action := unbindTagAction n) rfl).trans
        (if_pos (tag_.trans untagged))
      exact congrArg _ (tableRequest_moves taken owns generation)
    · have owns := acts (check := fun _ r => if r.state = .retired then none else some .state) (action := rebuildAction n)
        (if_pos retired)
      exact congrArg _ (tableRequest_effects (u := putAssembly n (rebuiltRecord r) u) taken owns generation)

end Sys2Proof.Edits

/-! PROOFS. RESTORE: the record that a well-formed body describes, the checks in order, and what is stored (R14, R15,
R113). -/

namespace Sys2Proof.Restores

open Sys2Proof Sys2Proof.Machine Sys2Proof.Transitions Sys2Proof.Writes Sys2Proof.Assemblies_

/-! ## Codes and what they name (section 9.3) -/

theorem asmState?_eq_some {k : Nat} {a : AsmState} : asmState? k = some a ↔ k = asmStateCode a := by
  constructor
  · intro is
    unfold asmState? at is
    split at is
    case h_11 => cases is
    all_goals
      cases is
      rfl
  · rintro rfl
    cases a <;> rfl

theorem restoreTarget?_eq_some {k : Nat} {a : AsmState} :
    restoreTarget? k = some a ↔ k = asmStateCode a ∧ a ≠ .measuring ∧ a ≠ .partly := by
  rw [restoreTarget?, Option.filter_eq_some_iff, asmState?_eq_some, decide_eq_true_iff]

theorem reason?_eq_some {k : Nat} {r : Reason} : reason? k = some r ↔ k = reasonCode r := by
  constructor
  · intro is
    unfold reason? at is
    split at is
    case h_4 => cases is
    all_goals
      cases is
      rfl
  · rintro rfl
    cases r <;> rfl

theorem yesNo?_eq_some {k : Nat} {b : Bool} : yesNo? k = some b ↔ k = if b then 1 else 0 := by
  constructor
  · intro is
    unfold yesNo? at is
    split at is
    case h_3 => cases is
    all_goals
      cases is
      rfl
  · rintro rfl
    cases b <;> rfl

theorem freshness?_eq_some {k : Nat} {b : Bool} : freshness? k = some b ↔ k = if b then 0 else 1 := by
  constructor
  · intro is
    unfold freshness? at is
    split at is
    case h_3 => cases is
    all_goals
      cases is
      rfl
  · rintro rfl
    cases b <;> rfl

theorem bank?_eq_some {k : Nat} {b : Bank} : bank? k = some b ↔ k = bankCode b := by
  constructor
  · intro is
    unfold bank? at is
    split at is
    case h_3 => cases is
    all_goals
      cases is
      rfl
  · rintro rfl
    cases b <;> rfl

/-! ## Axis entries -/

/-- An entry within the ranges of R14. -/
def EntryLegal (y : Entry) : Prop := -999999999 ≤ y.value ∧ y.value ≤ 999999999 ∧ y.head ≤ 3

/-- The body that carries an entry. -/
def sentEntry (y : Entry) : EntryBody :=
  ⟨y.value, if y.fresh then 0 else 1, if y.clamped then 1 else 0, y.head, bankCode y.bank⟩

theorem entry?_eq_some {b : EntryBody} {y : Entry} : entry? b = some y ↔ b = sentEntry y ∧ EntryLegal y := by
  simp only [entry?, Option.bind_eq_bind, Option.bind_eq_some_iff, freshness?_eq_some, yesNo?_eq_some, bank?_eq_some,
    Bool.and_eq_true, inLengthRange_iff, decide_eq_true_eq, Option.ite_none_right_eq_some, Option.some.injEq, sentEntry,
    EntryLegal]
  obtain ⟨value, freshness, clamp, head, bank⟩ := b
  constructor
  · rintro ⟨fresh, rfl, clamped, rfl, bank_, rfl, ⟨⟨low, high⟩, small⟩, rfl⟩
    exact ⟨rfl, low, high, Nat.le_of_lt_succ small⟩
  · rintro ⟨is, low, high, small⟩
    cases is
    exact ⟨_, rfl, _, rfl, _, rfl, ⟨⟨low, high⟩, Nat.lt_succ_of_le small⟩, rfl⟩

/-- An optional field reads as an optional value exactly when it carries that value, legal when present. -/
theorem optional?_eq_some {α β : Type} {read : α → Option β} {send : β → α} {legal : β → Prop}
    (reads : ∀ a y, read a = some y ↔ a = send y ∧ legal y) {a : Option α} {y : Option β} :
    optional? read a = some y ↔ a = y.map send ∧ ∀ z, y = some z → legal z := by
  cases a with
  | none => cases y <;> simp [optional?]
  | some a =>
    cases y with
    | none => simp [optional?]
    | some y => simp [optional?, reads]

theorem optionalEntry_eq_some {b : Option EntryBody} {y : Option Entry} :
    optional? entry? b = some y ↔ b = y.map sentEntry ∧ ∀ z, y = some z → EntryLegal z :=
  optional?_eq_some fun _ _ => entry?_eq_some

theorem optionalReason_eq_some {k : Option Nat} {r : Option Reason} :
    optional? reason? k = some r ↔ k = r.map reasonCode :=
  (optional?_eq_some (send := reasonCode) (legal := fun _ => True) fun _ _ => by rw [reason?_eq_some, and_true]).trans
    (by simp)

/-! ## The record of a well-formed body (R14, R15) -/

/-- The body spells this target, these entries and these fields, with the presences that the target asks for. -/
def Describes (b : RestoreBody) (target : AsmState) (length radius : Option Entry) (recheck : Bool)
    (reason : Option Reason) : Prop :=
  b.target = asmStateCode target ∧ target ≠ .measuring ∧ target ≠ .partly ∧ b.length = length.map sentEntry
    ∧ (∀ y, length = some y → EntryLegal y) ∧ b.radius = radius.map sentEntry ∧ (∀ y, radius = some y → EntryLegal y)
    ∧ b.recheck = (if recheck then 1 else 0) ∧ b.reason = reason.map reasonCode
    ∧ (target = .built → length = none ∧ radius = none)
    ∧ (target = .withdrawn → reason ≠ none) ∧ (target ≠ .withdrawn → target ≠ .retired → reason = none)
    ∧ (b.location ≠ none ↔ target = .issued ∨ target = .inService ∨ target = .withdrawn)

theorem targetPresences_iff {target : AsmState} {length radius : Option Entry} {reason : Option Reason}
    {location : Option Place} :
    targetPresences target length radius reason location = true
      ↔ (target = .built → length = none ∧ radius = none)
        ∧ (target = .withdrawn → reason ≠ none) ∧ (target ≠ .withdrawn → target ≠ .retired → reason = none)
        ∧ (location ≠ none ↔ target = .issued ∨ target = .inService ∨ target = .withdrawn) := by
  have away : location.isSome = outOfCrib target
      ↔ (location ≠ none ↔ target = .issued ∨ target = .inService ∨ target = .withdrawn) := by
    rw [← Sweeps.outOfCrib_iff, ← Option.isSome_iff_ne_none, Bool.eq_iff_iff]
  rw [← away]
  simp only [targetPresences, Bool.and_eq_true, Bool.or_eq_true, decide_eq_true_eq, Option.isNone_iff_eq_none,
    Option.isSome_iff_ne_none, and_assoc]
  tauto

/-- The record that the body describes, before any evaluation. -/
def givenRecord (b : RestoreBody) (target : AsmState) (length radius : Option Entry) (recheck : Bool)
    (reason : Option Reason) : Assembly :=
  { type := b.type, tag := b.tag, state := target, length := staledFor target length
    radius := staledFor target radius, lifeUsed := b.lifeUsed, lengthWear := b.lengthWear, radiusWear := b.radiusWear
    location := b.location, marked := false, recheck := recheck, reason := reason }

theorem describedRecord?_eq_some {b : RestoreBody} {r : Assembly} :
    describedRecord? b = some r ↔ ∃ target length radius recheck reason,
      Describes b target length radius recheck reason ∧ r = givenRecord b target length radius recheck reason := by
  simp only [describedRecord?, Option.bind_eq_bind, Option.bind_eq_some_iff, restoreTarget?_eq_some,
    optionalEntry_eq_some, yesNo?_eq_some, optionalReason_eq_some, Option.ite_none_right_eq_some, targetPresences_iff,
    Option.some.injEq]
  constructor
  · rintro ⟨target, ⟨code, unmeasured, whole⟩, length, ⟨long, longs⟩, radius, ⟨wide, wides⟩, recheck, again, reason, why,
      presences, rfl⟩
    exact ⟨target, length, radius, recheck, reason,
      ⟨code, unmeasured, whole, long, longs, wide, wides, again, why, presences⟩, rfl⟩
  · rintro ⟨target, length, radius, recheck, reason,
      ⟨code, unmeasured, whole, long, longs, wide, wides, again, why, presences⟩, rfl⟩
    exact ⟨target, ⟨code, unmeasured, whole⟩, length, ⟨long, longs⟩, radius, ⟨wide, wides⟩, recheck, again, reason, why,
      presences, rfl⟩

/-- The record that RESTORE stores of a described one (R15). -/
theorem restoredRecord_given (t : TypeRecord) {r : Assembly} (unmarked : r.marked = false) :
    restoredRecord t r
      = if r.state = .preset ∨ r.state = .rejected then { r with state := outcomeOf t r .rejected }
        else if r.state = .issued ∨ r.state = .inService then
          { r with recheck := r.recheck || decide (outcomeOf t r r.state ≠ .preset) }
        else r := by
  have evaluates : outOfCrib r.state = true →
      evaluated t r = { r with recheck := r.recheck || decide (outcomeOf t r r.state ≠ .preset) } := fun out => by
    rw [Sweeps.evaluated_out out, ← unmarked]
  unfold restoredRecord
  cases state : r.state with
  | issued | inService =>
    simp only [state] at evaluates
    simpa using evaluates rfl
  | built | measuring | partly | preset | rejected | remeasure | withdrawn | retired => simp

/-! ## The checks in order (R14) -/

section Checks

variable {s : State} {n : Nat} {b : RestoreBody}

theorem replaceable_iff :
    (recordAt s n).any (fun r => !inCrib r.state) = false ↔ ∀ old, recordAt s n = some old →
      old.state ≠ .measuring ∧ old.state ≠ .issued ∧ old.state ≠ .inService ∧ old.state ≠ .withdrawn := by
  simp only [Option.any_eq_false, Bool.not_eq_false', inCrib_iff, List.mem_cons,
    List.not_mem_nil, not_or, or_false]

theorem untaken_iff {tag : Option Tag} :
    tag.any (boundElsewhere s n) = false ↔ ∀ x, tag = some x →
      tableGet s.tagMap x.toNat = none ∨ tableGet s.tagMap x.toNat = some n := by
  simp only [Option.any_eq_false, boundElsewhere, decide_eq_false_iff_not, not_not]
  refine forall_congr' fun x => forall_congr' fun _ => ?_
  cases tableGet s.tagMap x.toNat <;> simp

/-- The place lies in the magazine of a defined machine. -/
def InMagazine (s : State) (p : Place) : Prop :=
  ∃ x, machineAt s p.machine = some x ∧ x.defined = true ∧ 1 ≤ p.pocket ∧ p.pocket ≤ x.magazine

theorem locationRefusal_outside {p : Place} (outside : ¬InMagazine s p) : locationRefusal s (some p) = some .badIndex := by
  rw [locationRefusal]
  cases machine : machineAt s p.machine with
  | none => rfl
  | some x =>
    refine if_pos ?_
    by_contra inside
    simp only [not_or, Bool.not_eq_false, Nat.not_lt] at inside
    obtain ⟨defined, low, high⟩ := inside
    exact outside ⟨x, machine, defined, Nat.pos_of_ne_zero low, high⟩

theorem locationRefusal_inside {p : Place} (inside : InMagazine s p) :
    locationRefusal s (some p) = if (occupant s p).isSome then some .state else none := by
  obtain ⟨x, machine, defined, low, high⟩ := inside
  rw [locationRefusal, machine]
  refine if_neg ?_
  rintro (un | zero | above)
  · rw [defined] at un
    cases un
  · omega
  · omega

theorem locationRefusal_none {location : Option Place}
    (fits : ∀ p, location = some p → InMagazine s p ∧ occupant s p = none) : locationRefusal s location = none := by
  cases location with
  | none => rfl
  | some p =>
    obtain ⟨inside, empty⟩ := fits p rfl
    rw [locationRefusal_inside inside, empty]
    rfl

variable (low : n ≤ 1023) (free : isHeld s n = false)

include low free

theorem ownRestore_irreplaceable (away : ¬(recordAt s n).any (fun r => !inCrib r.state) = false) :
    ownRestore n b s = replied s .state (.assembly n) :=
  (onAssembly_free low free).trans (if_pos (by simpa using away))

theorem ownRestore_malformed (home : (recordAt s n).any (fun r => !inCrib r.state) = false)
    (malformed : describedRecord? b = none) : ownRestore n b s = replied s .invalidTable (.assembly n) := by
  refine (onAssembly_free low free).trans ((if_neg (Bool.eq_false_iff.1 home)).trans ?_)
  rw [malformed]
  rfl

variable {r : Assembly} (home : (recordAt s n).any (fun r => !inCrib r.state) = false)
  (described : describedRecord? b = some r)

include home described

theorem ownRestore_unusable (unusable : typeUsable s b.type = false) :
    ownRestore n b s = replied s .badIndex (.assembly n) := by
  refine (onAssembly_free low free).trans ((if_neg (Bool.eq_false_iff.1 home)).trans ?_)
  rw [described]
  exact if_pos unusable

variable (usable : typeUsable s b.type = true)

include usable

theorem ownRestore_taken (bound : ¬b.tag.any (boundElsewhere s n) = false) :
    ownRestore n b s = replied s .tagInUse (.assembly n) := by
  refine (onAssembly_free low free).trans ((if_neg (Bool.eq_false_iff.1 home)).trans ?_)
  rw [described]
  exact (if_neg (by simp [usable])).trans (if_pos (by simpa using bound))

variable (untaken : b.tag.any (boundElsewhere s n) = false)

include untaken

theorem ownRestore_misplaced {status : Status} (refused : locationRefusal s b.location = some status) :
    ownRestore n b s = replied s status (.assembly n) := by
  refine (onAssembly_free low free).trans ((if_neg (Bool.eq_false_iff.1 home)).trans ?_)
  rw [described]
  refine (if_neg (by simp [usable])).trans ((if_neg (Bool.eq_false_iff.1 untaken)).trans ?_)
  rw [refused]
  rfl

variable (placed : locationRefusal s b.location = none) {new : Assembly} (is : restoredRecord (typeAt s b.type) r = new)

include placed is

theorem ownRestore_same (same : recordAt s n = some new) :
    ownRestore n b s = replied s .noChange (.assemblyState n new.state) := by
  refine (onAssembly_free low free).trans ((if_neg (Bool.eq_false_iff.1 home)).trans ?_)
  rw [described]
  refine (if_neg (by simp [usable])).trans ((if_neg (Bool.eq_false_iff.1 untaken)).trans ?_)
  rw [placed]
  dsimp only
  rw [is]
  exact if_pos same

theorem ownRestore_stores (other : recordAt s n ≠ some new) :
    ownRestore n b s
      = effected
          (enterPlace n new.location (countIn new.type (bindTo n new.tag
            (putAssembly n new (dropRecord (recordAt s n) s)))))
          (.assemblyState n new.state) := by
  refine (onAssembly_free low free).trans ((if_neg (Bool.eq_false_iff.1 home)).trans ?_)
  rw [described]
  refine (if_neg (by simp [usable])).trans ((if_neg (Bool.eq_false_iff.1 untaken)).trans ?_)
  rw [placed]
  dsimp only
  rw [is]
  exact if_neg other

end Checks

/-! ## The stored state (R15, R38, R113) -/

theorem enterPlace_eq (n : Nat) (location : Option Place) (s : State) :
    enterPlace n location s
      = { s with issueMap := location.elim s.issueMap fun p => tableSet s.issueMap (placeKey p) n } := by
  cases location <;> rfl

/-- The state that RESTORE leaves over an empty slot. -/
def enteredState (n : Nat) (new : Assembly) (s : State) : State :=
  { s with
    assemblies := tableSet s.assemblies n new
    tagMap := new.tag.elim s.tagMap fun x => tableSet s.tagMap x.toNat n
    types := s.types.setIfInBounds new.type { typeAt s new.type with inUse := (typeAt s new.type).inUse + 1 }
    issueMap := new.location.elim s.issueMap fun p => tableSet s.issueMap (placeKey p) n }

theorem entered_eq (n : Nat) (new : Assembly) (s : State) :
    enterPlace n new.location (countIn new.type (bindTo n new.tag (putAssembly n new (dropRecord none s))))
      = enteredState n new s := by
  rw [bindTo_eq, enterPlace_eq]
  rfl

/-- The state that RESTORE leaves over the record `old`. -/
def replacedState (n : Nat) (old new : Assembly) (s : State) : State :=
  { s with
    assemblies := tableSet s.assemblies n new
    tagMap :=
      new.tag.elim (old.tag.elim s.tagMap fun x => tableErase s.tagMap x.toNat)
        fun x => tableSet (old.tag.elim s.tagMap fun x => tableErase s.tagMap x.toNat) x.toNat n
    types := (countIn new.type (countOut old.type s)).types
    sweep := if old.marked then { s.sweep with marks := s.sweep.marks - 1, otherwise := s.sweep.otherwise + 1 }
      else s.sweep
    issueMap := new.location.elim s.issueMap fun p => tableSet s.issueMap (placeKey p) n }

theorem replaced_eq (n : Nat) (old new : Assembly) (s : State) :
    enterPlace n new.location (countIn new.type (bindTo n new.tag (putAssembly n new (dropRecord (some old) s))))
      = replacedState n old new s := by
  rw [dropRecord_eq, bindTo_eq, enterPlace_eq]
  rfl

/-- Settles O42: the checks in order, then the stored record over an empty slot, an equal record and another one. -/
theorem restoreStoresRecord : Obligations.RestoreStoresRecord := by
  intro s rt n b taken low free describes wellFormed replaceable usable untaken inMagazine refused
  have home : (recordAt s n).any (fun r => !inCrib r.state) = false ↔ replaceable := replaceable_iff
  have fit : typeUsable s b.type = true ↔ usable := typeUsable_iff
  have unbound : b.tag.any (boundElsewhere s n) = false ↔ untaken := untaken_iff
  have formed : wellFormed → ∃ r, describedRecord? b = some r := by
    rintro ⟨target, length, radius, recheck, reason, describes_⟩
    exact ⟨_, describedRecord?_eq_some.2 ⟨target, length, radius, recheck, reason, describes_, rfl⟩⟩
  refine ⟨fun away => ?_, fun back malformed => ?_, fun back well unfit => ?_, fun back well fits bound => ?_,
    fun back well fits own p place => ⟨fun outside => ?_, fun inside occupied => ?_⟩,
    fun target length radius recheck reason describes_ back fits own placed => ?_⟩
  · exact congrArg _ (tableRequest_answers taken
      (ownRestore_irreplaceable (s := heard .crib s) low free (mt home.1 away)))
  · have unread : describedRecord? b = none := by
      by_contra some_
      obtain ⟨r, described⟩ := Option.ne_none_iff_exists'.1 some_
      obtain ⟨target, length, radius, recheck, reason, describes_, -⟩ := describedRecord?_eq_some.1 described
      exact malformed ⟨target, length, radius, recheck, reason, describes_⟩
    exact congrArg _ (tableRequest_answers taken
      (ownRestore_malformed (s := heard .crib s) low free (home.2 back) unread))
  · obtain ⟨r, described⟩ := formed well
    exact congrArg _ (tableRequest_answers taken (ownRestore_unusable (s := heard .crib s) low free (home.2 back)
      described (Bool.eq_false_iff.2 (mt fit.1 unfit))))
  · obtain ⟨r, described⟩ := formed well
    exact congrArg _ (tableRequest_answers taken (ownRestore_taken (s := heard .crib s) low free (home.2 back)
      described (fit.2 fits) (mt unbound.1 bound)))
  · obtain ⟨r, described⟩ := formed well
    have refuses : locationRefusal s b.location = some .badIndex := by rw [place]; exact locationRefusal_outside outside
    exact congrArg _ (tableRequest_answers taken (ownRestore_misplaced (s := heard .crib s) low free (home.2 back)
      described (fit.2 fits) (unbound.2 own) refuses))
  · obtain ⟨r, described⟩ := formed well
    have refuses : locationRefusal s b.location = some .state := by
      rw [place, locationRefusal_inside inside, if_pos (Option.isSome_iff_ne_none.2 occupied)]
    exact congrArg _ (tableRequest_answers taken (ownRestore_misplaced (s := heard .crib s) low free (home.2 back)
      described (fit.2 fits) (unbound.2 own) refuses))
  · intro next stale given t new
    have described : describedRecord? b = some given :=
      describedRecord?_eq_some.2 ⟨target, length, radius, recheck, reason, describes_, rfl⟩
    have is : restoredRecord t given = new := restoredRecord_given t rfl
    obtain ⟨type_, tag_, location_, -⟩ := restoredRecord_fixes t (r := given) rfl
    rw [is] at type_ tag_ location_
    have goes : locationRefusal s b.location = none := locationRefusal_none placed
    have stores := ownRestore_stores (s := heard .crib s) low free (home.2 back) described (fit.2 fits) (unbound.2 own)
      goes is
    refine ⟨fun empty => ?_, fun same => ?_, fun old record other => ?_⟩
    · have owns := stores (by rw [show recordAt (heard .crib s) n = none from empty]; simp)
      rw [show recordAt (heard .crib s) n = none from empty, entered_eq] at owns
      refine congrArg _ ((tableRequest_effects (u := enteredState n new s) taken owns rfl).trans ?_)
      rw [enteredState, type_, tag_, location_]
    · exact congrArg _ (tableRequest_answers taken (ownRestore_same (s := heard .crib s) low free (home.2 back) described
        (fit.2 fits) (unbound.2 own) goes is same))
    · have owns := stores (by
        rw [show recordAt (heard .crib s) n = some old from record]
        exact fun same => other (Option.some.inj same))
      rw [show recordAt (heard .crib s) n = some old from record, replaced_eq] at owns
      refine congrArg _ ((tableRequest_effects (u := replacedState n old new s) taken owns rfl).trans ?_)
      rw [replacedState, type_, tag_, location_]

end Sys2Proof.Restores

/-! PROOFS. ISSUE: the seven checks, their refusals and the grant (R37, R101, R103 to R108). -/

namespace Sys2Proof.Issues

open Sys2Proof Sys2Proof.Machine Sys2Proof.Transitions

/-! ## Taken TAG frames -/

theorem onTag_taken {s : State} (taken : RequestTaken s) (c : Fin 4) (take : State → State) :
    onTag c take s = grants (take (heard .crib s)) := by
  have room : answerRoom (heard .crib s) = true := by simpa [answerRoom] using taken.2
  rw [onTag, onArrival_released _ _ _ taken.1, if_pos room]

theorem exec_issue {s : State} (taken : RequestTaken s) (c : Fin 4) (tag : Tag) (m p : Nat) :
    exec (.issue c tag m p) s = .next (grants (takeIssue c tag ⟨m, p⟩ (heard .crib s))) :=
  congrArg Host.Outcome.next (onTag_taken taken c _)

theorem exec_return {s : State} (taken : RequestTaken s) (c : Fin 4) (tag : Tag) :
    exec (.returnHolder c tag) s = .next (grants (takeReturn c tag (heard .crib s))) :=
  congrArg Host.Outcome.next (onTag_taken taken c _)

/-! ## The places of the issue map (R101) -/

theorem placeKey_inj {p q : Place} (low : p.pocket ≤ 240) (low' : q.pocket ≤ 240) : placeKey q = placeKey p ↔ q = p := by
  refine ⟨fun same => ?_, fun same => same ▸ rfl⟩
  unfold placeKey at same
  obtain ⟨m, k⟩ := p
  obtain ⟨m', k'⟩ := q
  simp only [Place.mk.injEq] at *
  omega

theorem occupant_entered (s : State) (n : Nat) {p q : Place} (low : p.pocket ≤ 240) (low' : q.pocket ≤ 240) :
    occupant { s with issueMap := tableSet s.issueMap (placeKey p) n } q = if q = p then some n else occupant s q := by
  refine (tableGet_tableSet _ _ _ _).trans ?_
  simp only [placeKey_inj low low']
  rfl

/-! ## The checks of a taken ISSUE (R104, R105) -/

/-- The answer of an ISSUE with the assembly that its tag names. -/
def issueAnswer (tag : Tag) (status : AnswerStatus) (p : Place) (n : Nat) : IssueAnswer :=
  { bareAnswer .issue tag status (some p) with assembly := some n }

/-- The life limit is not set, or not reached. -/
def LifeLeft (s : State) (r : Assembly) : Prop :=
  (typeAt s r.type).lifeLimit = 0 ∨ r.lifeUsed < (typeAt s r.type).lifeLimit

section Refusals

variable {s : State} {tag : Tag} {p : Place} {n : Nat} {r : Assembly}

theorem issueRefusal_notReady (other : r.state ≠ .preset) :
    issueRefusal s tag p n r = some { issueAnswer tag .notReady p n with
      actual := some r.state, location := if outOfCrib r.state then r.location else none } := if_pos other

theorem issueRefusal_lifeSpent (preset : r.state = .preset) (limited : (typeAt s r.type).lifeLimit ≠ 0)
    (spent : (typeAt s r.type).lifeLimit ≤ r.lifeUsed) :
    issueRefusal s tag p n r = some { issueAnswer tag .lifeSpent p n with
      life := some (r.lifeUsed, (typeAt s r.type).lifeLimit) } :=
  (if_neg (not_not.2 preset)).trans (if_pos ⟨limited, spent⟩)

variable (preset : r.state = .preset) (left : LifeLeft s r)

include preset left

theorem issueRefusal_unknownMachine (undefined : machineDefined s p.machine = false) :
    issueRefusal s tag p n r = some (issueAnswer tag .unknownMachine p n) := by
  have unspent : ¬((typeAt s r.type).lifeLimit ≠ 0 ∧ (typeAt s r.type).lifeLimit ≤ r.lifeUsed) := by
    unfold LifeLeft at left
    omega
  have none_ : (machineAt s p.machine).filter (·.defined) = none := by
    rw [Option.filter_eq_none_iff]
    intro x is defined
    rw [machineDefined, is] at undefined
    exact Bool.eq_false_iff.1 undefined defined
  refine (if_neg (not_not.2 preset)).trans ((if_neg unspent).trans ?_)
  rw [none_]
  rfl

variable {x : MachineDef} (machine : machineAt s p.machine = some x) (defined : x.defined = true)

include machine defined

/-- The checks of the pocket, once the machine is known. -/
theorem issueRefusal_pocket :
    issueRefusal s tag p n r
      = if p.pocket = 0 ∨ x.magazine < p.pocket then some (issueAnswer tag .badPocket p n)
        else (occupant s p).map fun a => { issueAnswer tag .pocketOccupied p n with occupying := some a } := by
  have unspent : ¬((typeAt s r.type).lifeLimit ≠ 0 ∧ (typeAt s r.type).lifeLimit ≤ r.lifeUsed) := by
    unfold LifeLeft at left
    omega
  have some_ : (machineAt s p.machine).filter (·.defined) = some x :=
    Option.filter_eq_some_iff.2 ⟨machine, defined⟩
  refine (if_neg (not_not.2 preset)).trans ((if_neg unspent).trans ?_)
  rw [some_]
  rfl

theorem issueRefusal_badPocket (outside : p.pocket = 0 ∨ x.magazine < p.pocket) :
    issueRefusal s tag p n r = some (issueAnswer tag .badPocket p n) :=
  (issueRefusal_pocket preset left machine defined).trans (if_pos outside)

variable (low : 1 ≤ p.pocket) (high : p.pocket ≤ x.magazine)

include low high

theorem issueRefusal_occupied {a : Nat} (occupied : occupant s p = some a) :
    issueRefusal s tag p n r = some { issueAnswer tag .pocketOccupied p n with occupying := some a } := by
  rw [issueRefusal_pocket preset left machine defined, if_neg (by omega), occupied]
  rfl

theorem issueRefusal_none (empty : occupant s p = none) : issueRefusal s tag p n r = none := by
  rw [issueRefusal_pocket preset left machine defined, if_neg (by omega), empty]
  rfl

end Refusals

/-! ## A taken ISSUE (R103 to R107) -/

theorem heard_placeRequest (q : Port) (p : Place) (origin : Origin) (assembly : Option Nat) (s : State) :
    placeRequest p origin assembly (heard q s) = heard q (placeRequest p origin assembly s) := by
  have same : isWaiting (heard q s) p = isWaiting s p := by cases q <;> rfl
  have list : (heard q s).waitList = s.waitList := by cases q <;> rfl
  unfold placeRequest
  rw [same, list]
  split
  · rfl
  · split
    · cases q <;> rfl
    · rw [Readings.heard_notify]
      cases q <;> rfl

section Issue

variable {s : State} {c : Fin 4} {tag : Tag} {p : Place} {n : Nat} {old r : Assembly}

theorem takeIssue_unbound (unbound : tableGet s.tagMap tag.toNat = none) :
    takeIssue c tag p (heard .crib s)
      = answered (.issueAnswer c (bareAnswer .issue tag .unknownTag (some p))) s := by
  rw [takeIssue, Contacts.lookupTag_unbound (s := heard .crib s) unbound]
  rfl

theorem takeIssue_held (bound : tableGet s.tagMap tag.toNat = some n) (record : recordAt s n = some old)
    (held : isHeld s n = true) :
    takeIssue c tag p (heard .crib s) = answered (.issueAnswer c (issueAnswer tag .held p n)) s := by
  rw [takeIssue, Contacts.lookupTag_bound (s := heard .crib s) bound record]
  exact if_pos held

variable (bound : tableGet s.tagMap tag.toNat = some n) (record : recordAt s n = some old) (free : isHeld s n = false)
  (reviewed : recordAt (reviewOnDemand n s) n = some r)

include bound record free reviewed

theorem takeIssue_refused {answer : IssueAnswer} (refused : issueRefusal (reviewOnDemand n s) tag p n r = some answer) :
    takeIssue c tag p (heard .crib s) = answered (.issueAnswer c answer) (reviewOnDemand n s) := by
  rw [takeIssue, Contacts.lookupTag_bound (s := heard .crib s) bound record]
  refine (if_neg (Bool.eq_false_iff.1 free)).trans ?_
  rw [Edits.heard_reviewOnDemand]
  have is : recordAt (heard .crib (reviewOnDemand n s)) n = some r := reviewed
  have refuses : issueRefusal (heard .crib (reviewOnDemand n s)) tag p n r = some answer := refused
  dsimp only
  rw [is, Option.getD_some, refuses]
  rfl

theorem takeIssue_granted (passes : issueRefusal (reviewOnDemand n s) tag p n r = none) :
    takeIssue c tag p (heard .crib s)
      = answered (.issueAnswer c (issueAnswer tag .granted p n))
          (pushOnIssue p n (grantIssue p n r (reviewOnDemand n s))) := by
  rw [takeIssue, Contacts.lookupTag_bound (s := heard .crib s) bound record]
  refine (if_neg (Bool.eq_false_iff.1 free)).trans ?_
  rw [Edits.heard_reviewOnDemand]
  have is : recordAt (heard .crib (reviewOnDemand n s)) n = some r := reviewed
  have grants_ : issueRefusal (heard .crib (reviewOnDemand n s)) tag p n r = none := passes
  have pushes : pushOnIssue p n (grantIssue p n r (heard .crib (reviewOnDemand n s)))
      = heard .crib (pushOnIssue p n (grantIssue p n r (reviewOnDemand n s))) := by
    unfold pushOnIssue
    have same : machineAt (grantIssue p n r (heard .crib (reviewOnDemand n s)))
        = machineAt (grantIssue p n r (reviewOnDemand n s)) := rfl
    rw [same]
    split
    · exact heard_placeRequest .crib p .pushOnIssue (some n) (grantIssue p n r (reviewOnDemand n s))
    · rfl
  dsimp only
  rw [is, Option.getD_some, grants_]
  dsimp only
  rw [pushes]
  rfl

end Issue

theorem pushOnIssue_eq {s : State} {p : Place} {x : MachineDef} (machine : machineAt s p.machine = some x) (n : Nat) :
    pushOnIssue p n s = if x.push then placeRequest p .pushOnIssue (some n) s else s := by
  rw [pushOnIssue, machine]
  rfl

theorem lifeLeft_review {s : State} {n : Nat} {r : Assembly} :
    LifeLeft (reviewOnDemand n s) r
      ↔ (typeAt s r.type).lifeLimit = 0 ∨ r.lifeUsed < (typeAt s r.type).lifeLimit := by
  rw [LifeLeft, typeAt_reviewOnDemand]

/-- Settles O50: a place's own key, and the grant after the seven checks. -/
theorem issueIsGranted : Obligations.IssueIsGranted := by
  refine ⟨fun s n p q low low' => occupant_entered s n low low', ?_⟩
  intro s c tag m p n old r x u taken bound record free reviewed preset left machine defined low high empty granted
  have machine_ : machineAt u m = some x := by rw [machineAt_reviewOnDemand]; exact machine
  have empty_ : occupant u ⟨m, p⟩ = none := by rw [occupant_reviewOnDemand]; exact empty
  have passes : issueRefusal u tag ⟨m, p⟩ n r = none :=
    issueRefusal_none preset (lifeLeft_review.2 left) machine_ defined low high empty_
  have grants_ : grantIssue ⟨m, p⟩ n r u = granted := by
    have map : u.issueMap = s.issueMap := by rw [show u = reviewOnDemand n s from rfl, reviewOnDemand_frame]
    rw [grantIssue, map]
    rfl
  have pushes : pushOnIssue ⟨m, p⟩ n granted
      = if x.push then placeRequest ⟨m, p⟩ .pushOnIssue (some n) granted else granted :=
    pushOnIssue_eq (s := granted) (p := ⟨m, p⟩) machine_ n
  rw [exec_issue taken, takeIssue_granted bound record free reviewed passes, grants_, pushes]
  rfl

/-! ## RETURN's refusals (R108) -/

section Return

variable {s : State} {c : Fin 4} {tag : Tag} {n : Nat} {r : Assembly}

theorem takeReturn_unbound (unbound : tableGet s.tagMap tag.toNat = none) :
    takeReturn c tag (heard .crib s) = answered (.issueAnswer c (bareAnswer .return_ tag .unknownTag none)) s := by
  rw [takeReturn, Contacts.lookupTag_unbound (s := heard .crib s) unbound]
  rfl

theorem takeReturn_home (bound : tableGet s.tagMap tag.toNat = some n) (record : recordAt s n = some r)
    (home : outOfCrib r.state = false) :
    takeReturn c tag (heard .crib s)
      = answered (.issueAnswer c
          { bareAnswer .return_ tag .notIssued none with assembly := some n, actual := some r.state }) s := by
  rw [takeReturn, Contacts.lookupTag_bound (s := heard .crib s) bound record]
  exact if_pos home

end Return

/-- Settles O51: the unknown tag, the return of an assembly in the crib, and the checks of an ISSUE in order. -/
theorem tagFramesAreRefused : Obligations.TagFramesAreRefused := by
  intro s c tag m p taken bare here
  refine ⟨fun unbound => ⟨?_, ?_⟩, fun n old bound record => ?_⟩
  · rw [exec_issue taken, takeIssue_unbound unbound]
    rfl
  · rw [exec_return taken, takeReturn_unbound unbound]
    rfl
  · intro u
    refine ⟨fun home => ?_, fun held => ?_, fun free r reviewed => ?_⟩
    · rw [exec_return taken, takeReturn_home bound record home]
      rfl
    · rw [exec_issue taken, takeIssue_held bound record held]
      rfl
    · have refuses : ∀ {answer}, issueRefusal u tag ⟨m, p⟩ n r = some answer →
          exec (.issue c tag m p) s = .next (grants (answered (.issueAnswer c answer) u)) := by
        intro answer refused
        rw [exec_issue taken, takeIssue_refused bound record free reviewed refused]
      have types : typeAt u = typeAt s := typeAt_reviewOnDemand n s
      have machines : machineAt u = machineAt s := machineAt_reviewOnDemand n s
      refine ⟨fun other => ?_, fun preset limited spent => ?_, fun preset left => ⟨fun undefined => ?_,
        fun x machine defined => ⟨fun outside => ?_, fun a low high occupied => ?_⟩⟩⟩
      · exact refuses (issueRefusal_notReady other)
      · rw [← types] at limited spent ⊢
        exact refuses (issueRefusal_lifeSpent preset limited spent)
      · refine refuses (issueRefusal_unknownMachine preset (lifeLeft_review.2 left) ?_)
        rw [machineDefined, machines]
        exact undefined
      · exact refuses (issueRefusal_badPocket (p := ⟨m, p⟩) preset (lifeLeft_review.2 left)
          (by rw [machines]; exact machine) defined outside)
      · exact refuses (issueRefusal_occupied (p := ⟨m, p⟩) preset (lifeLeft_review.2 left)
          (by rw [machines]; exact machine) defined low high (by rw [occupant_reviewOnDemand]; exact occupied))

end Sys2Proof.Issues

/-! PROOFS. Accepted and forced returns, and SEED_AUDIT (R109 to R112, R115, R146). -/

namespace Sys2Proof.Returns

open Sys2Proof Sys2Proof.Machine Sys2Proof.Transitions Sys2Proof.Writes

/-! ## The outcome (R110) -/

/-- The draw selects the assembly for an audit. -/
abbrev Selected (t : TypeRecord) (r : Assembly) (draw : Nat) : Prop :=
  r.state ≠ .withdrawn ∧ r.recheck = false ∧ 1 ≤ t.auditThreshold ∧ draw ≤ t.auditThreshold

/-- The state after an accepted return. -/
def returnedState (t : TypeRecord) (r : Assembly) (draw : Nat) : AsmState :=
  if r.state = .withdrawn then .retired else if r.recheck = true ∨ Selected t r draw then .remeasure else .preset

/-- The answer status of an accepted return. -/
def returnedStatus (t : TypeRecord) (r : Assembly) (draw : Nat) : AnswerStatus :=
  if r.state = .withdrawn then .returnedRetired
  else if r.recheck = true ∨ Selected t r draw then .returnedRemeasure else .returnedPreset

section Outcome

variable {t : TypeRecord} {r : Assembly} {draw : Nat}

theorem returnOutcome_retired (withdrawn : r.state = .withdrawn) : returnOutcome t r draw = .retired := if_pos withdrawn

theorem returnOutcome_recheck (other : r.state ≠ .withdrawn) (recheck : r.recheck = true) :
    returnOutcome t r draw = .recheck := (if_neg other).trans (if_pos recheck)

theorem returnOutcome_audit (selected : Selected t r draw) : returnOutcome t r draw = .audit := by
  obtain ⟨other, clear, threshold, low⟩ := selected
  exact (if_neg other).trans ((if_neg (by simp [clear])).trans (if_pos ⟨threshold, low⟩))

theorem returnOutcome_plain (other : r.state ≠ .withdrawn) (clear : r.recheck = false) (unselected : ¬Selected t r draw) :
    returnOutcome t r draw = .plain :=
  (if_neg other).trans ((if_neg (by simp [clear])).trans
    (if_neg fun ⟨threshold, low⟩ => unselected ⟨other, clear, threshold, low⟩))

/-- What the outcome says: the record's state, the answer's status, and whether an audit is reported. -/
theorem returnOutcome_says :
    (returnedRecord (returnOutcome t r draw) r
        = { r with
            state := returnedState t r draw, location := none, recheck := false
            length := if returnedState t r draw = .remeasure then r.length.map fun e => { e with fresh := false } else r.length
            radius := if returnedState t r draw = .remeasure then r.radius.map fun e => { e with fresh := false } else r.radius })
      ∧ outcomeStatus (returnOutcome t r draw) = returnedStatus t r draw
      ∧ (returnOutcome t r draw = .audit ↔ Selected t r draw)
      ∧ (returnOutcome t r draw = .retired ↔ r.state = .withdrawn) := by
  unfold returnedState returnedStatus
  by_cases withdrawn : r.state = .withdrawn
  · have unselected : ¬Selected t r draw := fun selected => selected.1 withdrawn
    rw [returnOutcome_retired withdrawn, if_pos withdrawn, if_pos withdrawn]
    exact ⟨rfl, rfl, iff_of_false (by decide) unselected, iff_of_true rfl withdrawn⟩
  rw [if_neg withdrawn, if_neg withdrawn]
  by_cases recheck : r.recheck = true
  · have unselected : ¬Selected t r draw := fun selected => by
      have clear := selected.2.1
      rw [recheck] at clear
      cases clear
    have either : r.recheck = true ∨ Selected t r draw := .inl recheck
    rw [returnOutcome_recheck withdrawn recheck, if_pos either, if_pos either]
    exact ⟨rfl, rfl, iff_of_false (by decide) unselected, iff_of_false (by decide) withdrawn⟩
  by_cases selected : Selected t r draw
  · have either : r.recheck = true ∨ Selected t r draw := .inr selected
    rw [returnOutcome_audit selected, if_pos either, if_pos either]
    exact ⟨rfl, rfl, iff_of_true rfl selected, iff_of_false (by decide) withdrawn⟩
  · have neither : ¬(r.recheck = true ∨ Selected t r draw) := fun h => h.elim recheck selected
    rw [returnOutcome_plain withdrawn (by simpa using recheck) selected, if_neg neither, if_neg neither]
    exact ⟨rfl, rfl, iff_of_false (by decide) selected, iff_of_false (by decide) withdrawn⟩

end Outcome

/-! ## The accepted return (R109, R111, R146) -/

section Accept

variable {s : State} {n : Nat} {r : Assembly}

/-- The draw of the return. -/
def drawOf (s : State) : Nat := (auditStep s.audit).toNat

/-- The state with the assembly back in the crib. -/
def backState (n : Nat) (r : Assembly) (s : State) : State :=
  { s with
    issueMap := tableEraseValue s.issueMap n, audit := auditStep s.audit, handoff := s.handoff.map (voidedFor n)
    assemblies := tableSet s.assemblies n (returnedRecord (returnOutcome (typeAt s r.type) r (drawOf s)) r) }

theorem acceptReturn_eq (counter : Option (Fin 4)) :
    acceptReturn n r counter s
      = if Selected (typeAt s r.type) r (drawOf s) then
          notify (.auditSelected n r.type (drawOf s) (typeAt s r.type).auditThreshold (r.location.getD ⟨0, 0⟩) counter)
            (backState n r s)
        else backState n r s := by
  obtain ⟨-, -, audit, -⟩ := returnOutcome_says (t := typeAt s r.type) (r := r) (draw := drawOf s)
  exact if_congr audit rfl rfl

theorem heard_acceptReturn (p : Port) (counter : Option (Fin 4)) :
    acceptReturn n r counter (heard p s) = heard p (acceptReturn n r counter s) := by
  have types : typeAt (heard p s) = typeAt s := typeAt_heard s p
  have draws : drawOf (heard p s) = drawOf s := by cases p <;> rfl
  have back : backState n r (heard p s) = heard p (backState n r s) := by cases p <;> rfl
  rw [acceptReturn_eq, acceptReturn_eq, types, draws, back]
  split
  · exact (Readings.heard_notify p _ _).symm
  · rfl

theorem generation_acceptReturn (counter : Option (Fin 4)) : (acceptReturn n r counter s).generation = s.generation := by
  rw [acceptReturn_eq]
  split
  · exact notify_generation _ _
  · rfl

theorem takeReturn_accepted {tag : Tag} (bound : tableGet s.tagMap tag.toNat = some n) (record : recordAt s n = some r)
    (out : outOfCrib r.state = true) (c : Fin 4) :
    takeReturn c tag (heard .crib s)
      = answered
          (.issueAnswer c
            { bareAnswer .return_ tag (returnedStatus (typeAt s r.type) r (drawOf s)) r.location with
              assembly := some n, draw := some (drawOf s)
              reason := if r.state = .withdrawn then r.reason else none })
          (acceptReturn n r (some c) s) := by
  obtain ⟨-, status, -, retired⟩ := returnOutcome_says (t := typeAt s r.type) (r := r) (draw := drawOf s)
  rw [takeReturn, Contacts.lookupTag_bound (s := heard .crib s) bound record]
  refine (if_neg (by simp [out])).trans ?_
  rw [heard_acceptReturn, ← status, ← if_congr retired rfl rfl]
  rfl

/-! ## FORCE_RETURN (R112) -/

theorem ownForceReturn_outside (above : 1023 < n) (s : State) : ownForceReturn n s = replied s .badIndex .none :=
  if_pos above

theorem ownForceReturn_home (low : n ≤ 1023) (home : ∀ r, recordAt s n = some r → outOfCrib r.state = false) :
    ownForceReturn n s = replied s .state .none := by
  refine (if_neg (Nat.not_lt.2 low)).trans ?_
  match record : recordAt s n with
  | none => rfl
  | some r => exact if_pos (home r record)

theorem ownForceReturn_accepted (low : n ≤ 1023) (record : recordAt s n = some r) (out : outOfCrib r.state = true) :
    ownForceReturn n s
      = effected (acceptReturn n r none s)
          (.forcedReturn n (r.location.getD ⟨0, 0⟩) (drawOf s) (returnedStatus (typeAt s r.type) r (drawOf s))
            (returnedState (typeAt s r.type) r (drawOf s)) (if r.state = .withdrawn then r.reason else none)) := by
  obtain ⟨whole, status, -, retired⟩ := returnOutcome_says (t := typeAt s r.type) (r := r) (draw := drawOf s)
  have state := congrArg Assembly.state whole
  refine (if_neg (Nat.not_lt.2 low)).trans ?_
  rw [record]
  refine (if_neg (by simp [out])).trans ?_
  rw [← status, ← if_congr retired rfl rfl]
  exact congrArg (fun a => effected (acceptReturn n r none s) (.forcedReturn n (r.location.getD ⟨0, 0⟩) (drawOf s)
    (outcomeStatus (returnOutcome (typeAt s r.type) r (drawOf s))) a
    (if returnOutcome (typeAt s r.type) r (drawOf s) = .retired then r.reason else none))) state

end Accept

/-! ## SEED_AUDIT (R115) -/

section Seed

variable {s : State} {value : Nat}

theorem ownSeedAudit_outside (above : 32767 < value) (s : State) : ownSeedAudit value s = replied s .invalidTable .none :=
  if_pos above

/-- The generator's value for a seed, 0 read as 1. -/
def seedOf (value : Nat) : BitVec 15 := if value = 0 then 1 else BitVec.ofNat 15 value

theorem ownSeedAudit_stores (low : value ≤ 32767) (other : seedOf value ≠ s.audit) :
    ownSeedAudit value s = effected { s with audit := seedOf value } (.audit (seedOf value).toNat) :=
  (if_neg (Nat.not_lt.2 low)).trans (if_neg other)

theorem ownSeedAudit_same (low : value ≤ 32767) (same : seedOf value = s.audit) :
    ownSeedAudit value s = replied s .noChange (.audit (seedOf value).toNat) :=
  (if_neg (Nat.not_lt.2 low)).trans (if_pos same)

end Seed

/-- Settles O52: the accepted return by tag and by number, the refusals, and the seed. -/
theorem returnsAreAccepted : Obligations.ReturnsAreAccepted := by
  refine ⟨fun s n r record out => ?_, fun r => Sweeps.outOfCrib_iff, fun s rt n taken => ⟨fun above => ?_,
    fun low home => ?_, fun above => ?_⟩, fun s rt value taken low => ⟨fun other => ?_, fun same => ?_⟩⟩
  · intro draw t place selected state status back reason
    have back_ : backState n r s = back := by
      obtain ⟨whole, -⟩ := returnOutcome_says (t := t) (r := r) (draw := drawOf s)
      have voids : (voidedFor n : HandoffFrame → HandoffFrame) = fun f =>
          match f.content with
          | .served a _ _ => if a = n then { f with void := true } else f
          | _ => f := by
        funext f
        obtain ⟨m, p, content, void⟩ := f
        cases content <;> rfl
      rw [backState, whole, voids]
      rfl
    refine ⟨fun c tag taken bound => ?_, fun rt taken low => ?_⟩
    · rw [Issues.exec_return taken, takeReturn_accepted bound record out, acceptReturn_eq, back_]
      rfl
    · have owns := ownForceReturn_accepted (s := heard .crib s) low record out
      rw [heard_acceptReturn] at owns
      refine congrArg _ ((tableRequest_effects taken owns (generation_acceptReturn none)).trans ?_)
      rw [acceptReturn_eq, back_]
      rfl
  · exact congrArg _ (tableRequest_answers taken (ownForceReturn_outside above _))
  · exact congrArg _ (tableRequest_answers taken (ownForceReturn_home (s := heard .crib s) low home))
  · exact congrArg _ (tableRequest_answers taken (ownSeedAudit_outside above _))
  · exact congrArg _ (tableRequest_effects (u := { s with audit := seedOf value }) taken
      (ownSeedAudit_stores (s := heard .crib s) low other) rfl)
  · exact congrArg _ (tableRequest_answers taken (ownSeedAudit_same (s := heard .crib s) low same))

end Sys2Proof.Returns
